-- ==== Sys2Proof/Word.lean ====
section
/-! DEFINITION. The widths of the values the CORE handles (spec/00_scope.md R5, R6, R8): each is an unsigned
number of a fixed width, so each is a bit vector and every sum and difference is reduced modulo a power of two. -/

namespace Sys2Proof

/-- A 32-bit value: a checksum, a unit register, the slot value, a response word (R5 `W`, R6 `RSP_W`). -/
abbrev Word := BitVec 32

/-- A byte of the buffer space, unsigned, 0 to 255 (R8, R61). -/
abbrev Byte := BitVec 8

/-- A byte address of the buffer space, a buffer reference (R6 `ADDR_W`, R30). -/
abbrev Addr := BitVec 32

/-- The length operand, in bytes (R6 `LEN_W`, R48). -/
abbrev Len := BitVec 24

/-- An opcode (R46). -/
abbrev Opcode := BitVec 8

/-- A command word (R6 `CMD_W`, R45, R46). -/
abbrev Command := BitVec 64

end Sys2Proof
end

