-- ==== Sys2Proof/Syntax.lean ====
section
/-! DEFINITION. The two commands of spec/30_encoding.md R51, one constructor per row of spec/opcode_table.json.
Every value of the operand fields decodes (R48, R49), so the fields carry their widths and nothing more. -/

namespace Sys2Proof

/-- A decoded command: format B with its buffer reference and its length in bytes (R46, R51). -/
inductive Instr where
  /-- `SAVE base, len` (R95; the source's `save_checkpoint`). -/
  | save (base : Addr) (len : Len)
  /-- `VERIFY base, len` (R97; the source's `verify_checkpoint`). -/
  | verify (base : Addr) (len : Len)
deriving DecidableEq, Repr

/-- The buffer reference a command names. -/
def Instr.base : Instr → Addr
  | .save base _ => base
  | .verify base _ => base

/-- The length a command names. -/
def Instr.len : Instr → Len
  | .save _ len => len
  | .verify _ len => len

end Sys2Proof
end

