-- ==== Sys2Proof/WellFormed.lean ====
section
/-! DEFINITION. What must hold before a command word is built (spec/70_reset_and_hazards.md R139, spec/30_encoding.md
R48, R49, R56): a host that holds wider numbers checks that they fit the fields and never truncates them. -/

namespace Sys2Proof

/-- A command as the host writes it (R56), its operands not yet limited to the fields' widths. -/
inductive Request where
  | save (base len : Nat)
  | verify (base len : Nat)
deriving DecidableEq, Repr

/-- The buffer reference a request names, as the host holds it. -/
def Request.base : Request → Nat
  | .save base _ => base
  | .verify base _ => base

/-- The length a request names, as the host holds it. -/
def Request.len : Request → Nat
  | .save _ len => len
  | .verify _ len => len

/-- The buffer reference fits the 32-bit field `BASE` (R49, R139). -/
def Request.baseFits (r : Request) : Bool := decide (r.base < 2 ^ 32)

/-- The length fits the 24-bit field `LEN` (R48, R139). -/
def Request.lenFits (r : Request) : Bool := decide (r.len < 2 ^ 24)

/-- The range check a host makes before it builds a command word (R139). -/
def Request.wellFormed (r : Request) : Bool := r.baseFits && r.lenFits

/-- The command a request stands for: none where an operand does not fit its field, for truncating one could turn an
illegal length into a legal one (R48, R139). -/
def Request.toInstr (r : Request) : Option Instr :=
  if r.wellFormed then
    match r with
    | .save base len => some (.save (BitVec.ofNat 32 base) (BitVec.ofNat 24 len))
    | .verify base len => some (.verify (BitVec.ofNat 32 base) (BitVec.ofNat 24 len))
  else none

/-- The request that names a command's own operands. -/
def Instr.toRequest : Instr → Request
  | .save base len => .save base.toNat len.toNat
  | .verify base len => .verify base.toNat len.toNat

/-- A command is well formed when its operands fit its word's fields; the types see to it (`instr_wellFormed` in
Laws/Encoding.lean). Whether they keep the contract of R94 is not a question of form: such a command decodes (R48, R49). -/
def Instr.wellFormed (i : Instr) : Bool := i.toRequest.wellFormed

end Sys2Proof
end

