-- ==== Sys2Proof/Decode.lean ====
section
/-! DEFINITION. The command word: its fields (spec/30_encoding.md R46), the opcode map (R51), the decoder, total on
all 2^64 words (R58), and the encoder. -/

namespace Sys2Proof

/-- `cmd[7:0]` (R46). -/
def opcodeField (cmd : Command) : Opcode := cmd.extractLsb' 0 8

/-- `cmd[31:8]` (R46). -/
def lenField (cmd : Command) : Len := cmd.extractLsb' 8 24

/-- `cmd[63:32]` (R46). -/
def baseField (cmd : Command) : Addr := cmd.extractLsb' 32 32

/-- `OPC_SAVE` (R6, R51). -/
def opcSave : Opcode := 0x01

/-- `OPC_VERIFY` (R6, R51). -/
def opcVerify : Opcode := 0x02

/-- Why a word is no command. -/
inductive DecodeError where
  /-- The opcode is 0x00 or 0x03 to 0xFF: reserved, whatever the other fields hold (R52). -/
  | reservedOpcode (opc : Opcode)
deriving DecidableEq, Repr

/-- The choice R58 makes on the latched fields: the opcode alone selects the command. -/
def decodeFields (opc : Opcode) (len : Len) (base : Addr) : Except DecodeError Instr :=
  if opc = opcSave then .ok (.save base len)
  else if opc = opcVerify then .ok (.verify base len)
  else .error (.reservedOpcode opc)

/-- Decode a command word (R58). -/
def decode (cmd : Command) : Except DecodeError Instr :=
  decodeFields (opcodeField cmd) (lenField cmd) (baseField cmd)

/-- The opcode of a command (R51). -/
def Instr.opcode : Instr → Opcode
  | .save _ _ => opcSave
  | .verify _ _ => opcVerify

/-- The command word of a command: the fields side by side, `BASE` on top (R46). -/
def encode (i : Instr) : Command := (i.base ++ i.len ++ i.opcode : BitVec (32 + 24 + 8))

/-- The low `nbits` bits of `w` as a command word, every bit above them zero. A command reaches the CORE as one
64-bit word on the command port (R45), so it has no byte order. -/
def commandOfTable (nbits w : Nat) : Command := BitVec.ofNat 64 (w % 2 ^ nbits)

/-- The command the decoder reads from a word numbered as spec/opcode_table.json numbers it; none where it refuses. -/
def decodeTableWord (nbits w : Nat) : Option Instr :=
  match decode (commandOfTable nbits w) with
  | .ok i => some i
  | .error _ => none

end Sys2Proof
end

