-- ==== Sys2Proof/Config.lean ====
section
/-! DEFINITION. The free values: what spec/10_state.md R16 leaves unspecified between commands (`IDX`, `OPC`, `BASE`,
`LEN`). None has a body, so nothing can be proved of one; the n-th value drawn is the constant applied to n. DEDUCED,
safe, notes/assumptions/6.md. The spec's parameters (R5, R6) are in Machine/Params.lean. -/

namespace Sys2Proof

/-- What `IDX` holds between commands (R16, U7). -/
opaque Config.freeIdx : Nat → Len

/-- What `OPC` holds between commands (R16, U7). -/
opaque Config.freeOpc : Nat → Opcode

/-- What `BASE` holds between commands (R16, U7). -/
opaque Config.freeBase : Nat → Addr

/-- What `LEN` holds between commands (R16, U7). -/
opaque Config.freeLen : Nat → Len

end Sys2Proof
end

