-- ==== Sys2Proof/Machine/Params.lean ====
section
/-! DEFINITION. The parameters of spec/00_scope.md R5 (fixed by the source) and R6 (decided by the spec,
notes/assumptions/9.md), and the values the model names where the spec states none (notes/assumptions/4.md, 8.md). -/

namespace Sys2Proof.Machine

/-- `MAX_LEN`: a legal length is strictly less (R5). -/
def maxLen : Nat := 1048576

/-- `POLY`, the reversed polynomial constant (R5). -/
def crcPoly : Word := 0xEDB88320

/-- `CRC_INIT` (R5). -/
def crcInitValue : Word := 0xFFFFFFFF

/-- `LH_SHIFT` (R5). -/
def lhShift : Nat := 5

/-- CRC bit steps per byte (R5). -/
def crcStepsPerByte : Nat := 8

/-- `SUM_INIT` (R6, R60). -/
def sumInitValue : Word := 0x00000000

/-- `LH_INIT`, the spec's decision D10 (R6, R64). UNVERIFIED, unsafe, notes/assumptions/9.md. -/
def lhInitValue : Word := 0x00000000

/-- `NULL_REF` (R6, R39). -/
def nullRef : Addr := 0x00000000

/-- What a byte of the buffer space that no host action has set reads as. DESIGN CHOICE, unsafe,
notes/assumptions/8.md. -/
def unlistedByte : Byte := 0x00

/-- `SUM`, `LH` and `CRC` after reset, which R25 leaves unspecified. DESIGN CHOICE, unsafe, notes/assumptions/4.md. -/
def unitAtReset : Word := 0x00000000

/-- `IDX` and `LEN` after reset, which R25 leaves unspecified. DESIGN CHOICE, unsafe, notes/assumptions/4.md. -/
def countAtReset : Len := 0x000000

/-- `OPC` after reset, which R25 leaves unspecified. DESIGN CHOICE, unsafe, notes/assumptions/4.md. -/
def opcAtReset : Opcode := 0x00

/-- `BASE` after reset, which R25 leaves unspecified. DESIGN CHOICE, unsafe, notes/assumptions/4.md. -/
def baseAtReset : Addr := 0x00000000

end Sys2Proof.Machine
end

