-- ==== Sys2Proof/Machine/State.lean ====
section
/-! DEFINITION. What the machine holds: the ten registers of spec/10_state.md R10, and beside them the surroundings
that R10 calls inputs of a step (buffer space, the host's actions) and what leaves the CORE (responses, reads), which
stand in the state because a step of the host's interface takes a state alone (notes/assumptions/1.md). -/

namespace Sys2Proof.Machine

/-- What the host does to the CORE, one action at a time, between commands. -/
inductive HostAction where
  /-- Present a command word on the command port (R45). -/
  | present (cmd : Command)
  /-- `MODIFY addr: byte`: change one byte of the buffer space, which the host owns (R30, R57). -/
  | modify (addr : Addr) (value : Byte)
  /-- Assert the one reset input (R130). -/
  | assertReset
deriving DecidableEq, Repr

/-- The buffer space (R30): (address, byte) pairs, addresses strictly rising, no byte equal to what an unlisted
address reads as (`Memory.wf`). -/
abbrev Memory := List Host.Cell

/-- Why the machine stops. -/
inductive Fault where
  /-- Raised by `step` and by both commands when `FAULT` is not zero: a halted CORE has no enabled step (R118, U6).
  It carries `FAULT`, the causes of the halt. Safe: the hardware does nothing either. -/
  | halted (causes : BitVec 3)
deriving DecidableEq, Repr

/-- Why the model gives no meaning. -/
inductive Refusal where
  /-- Raised by `exec` for an instruction without a meaning; no arm of this model raises it. Safe. -/
  | notModelled (mnemonic : String)
deriving DecidableEq, Repr

/-- The machine. -/
structure State where
  /-- `SUM` (R11). -/
  sum : Word
  /-- `LH` (R12). -/
  lh : Word
  /-- `CRC`, not complemented (R13). -/
  crc : Word
  /-- `IDX`, the index of the next byte to read (R16). -/
  idx : Len
  /-- `OPC`, latched from the command word (R16). -/
  opc : Opcode
  /-- `BASE`, latched from the command word (R16). -/
  base : Addr
  /-- `LEN`, latched from the command word (R16). -/
  len : Len
  /-- `SLOT_VALUE` (R17). -/
  slotValue : Word
  /-- `SLOT_VALID` (R18). -/
  slotValid : Bool
  /-- `FAULT`, sticky: bit 0 `NULLREF`, bit 1 `LENGTH`, bit 2 `BADCMD` (R21). -/
  fault : BitVec 3
  /-- The buffer space, the host's (R30). -/
  mem : Memory
  /-- What the host does next, first action first (R15, R45, R57). -/
  host : List HostAction
  /-- The response words given so far, oldest first (R54, R55). -/
  responses : List Word
  /-- The addresses read so far, newest first (R31, R32). -/
  reads : List Addr
  /-- The model's own: how many free values have been drawn (notes/assumptions/6.md). -/
  draw : Nat
deriving DecidableEq, Repr

/-- The machine after reset (R25, R130) with a host that does nothing (notes/assumptions/2.md). -/
def State.reset : State where
  sum := unitAtReset
  lh := unitAtReset
  crc := unitAtReset
  idx := countAtReset
  opc := opcAtReset
  base := baseAtReset
  len := countAtReset
  slotValue := 0x00000000
  slotValid := false
  fault := 0b000
  mem := []
  host := []
  responses := []
  reads := []
  draw := 0

end Sys2Proof.Machine
end

