-- ==== Sys2Proof/Machine/Flags.lean ====
section
/-! DEFINITION. The two kinds of flag the CORE has: the causes of a contract violation, bits of `FAULT`
(spec/10_state.md R21), and the result codes a command ends with (spec/30_encoding.md R54). There are no condition
codes (R18). -/

namespace Sys2Proof.Machine

/-- A cause of a contract violation (R110). -/
inductive Cause where
  /-- `BASE == NULL_REF` (R111). -/
  | nullref
  /-- `LEN >= MAX_LEN` (R112). -/
  | length
  /-- An illegal command word (R113). -/
  | badcmd
deriving DecidableEq, Repr

/-- The bit of `FAULT` a cause sets (R21). -/
def Cause.bit : Cause → BitVec 3
  | .nullref => 0b001
  | .length => 0b010
  | .badcmd => 0b100

/-- `mask(causes)` (R116). -/
def causeMask : List Cause → BitVec 3
  | [] => 0b000
  | c :: rest => c.bit ||| causeMask rest

/-- The `halted` output: `FAULT ≠ 0` (R21, R55). -/
def State.halted (s : State) : Bool := decide (s.fault ≠ 0)

/-- How a command ends normally (R54, R125). -/
inductive ResultCode where
  /-- 0: `SAVE` stored, or `VERIFY` passed. -/
  | success
  /-- -1: no consensus. -/
  | consensusFailure
  /-- -2: `VERIFY` on an Empty slot. -/
  | noCheckpoint
  /-- -3: `VERIFY` found another value. -/
  | mismatch
deriving DecidableEq, Repr

/-- The integer of a result code (R54). -/
def ResultCode.toInt : ResultCode → Int
  | .success => 0
  | .consensusFailure => -1
  | .noCheckpoint => -2
  | .mismatch => -3

/-- The response word of a result code: its integer in 32-bit two's complement (R54). -/
def ResultCode.word (c : ResultCode) : Word := BitVec.ofInt 32 c.toInt

end Sys2Proof.Machine
end

