-- ==== Sys2Proof/Machine/Memory.lean ====
section
/-! DEFINITION. The buffer space (spec/20_memory.md R30, R31): a total read of one byte, the host's change of one byte
(spec/30_encoding.md R57), and the canonical form that makes equal memories equal data. -/

namespace Sys2Proof.Machine

/-- The byte at a numbered cell. -/
def Memory.get : Memory → Nat → Byte
  | [], _ => unlistedByte
  | (k, b) :: rest, a => if k = a then b else Memory.get rest a

/-- The byte at an address; every address answers (R31). -/
def Memory.read (m : Memory) (a : Addr) : Byte := Memory.get m a.toNat

/-- List a byte at a numbered cell, keeping the addresses rising and leaving out what an unlisted one reads as. -/
def Memory.put : Memory → Nat → Byte → Memory
  | [], a, v => if v = unlistedByte then [] else [(a, v)]
  | (k, b) :: rest, a, v =>
    if k < a then (k, b) :: Memory.put rest a v
    else if k = a then (if v = unlistedByte then rest else (a, v) :: rest)
    else if v = unlistedByte then (k, b) :: rest
    else (a, v) :: (k, b) :: rest

/-- Change the byte at an address (the host's `MODIFY`, R57; the CORE itself never writes, R33). -/
def Memory.write (m : Memory) (a : Addr) (v : Byte) : Memory := Memory.put m a.toNat v

/-- The canonical form from a lower bound on: addresses rise and lie in the space, and no listed byte is what an
unlisted address reads as. -/
def Memory.wfFrom : Nat → Memory → Bool
  | _, [] => true
  | lo, (k, b) :: rest => decide (lo ≤ k) && decide (k < 2 ^ 32) && decide (b ≠ unlistedByte) && Memory.wfFrom (k + 1) rest

/-- The canonical form of a buffer space. -/
def Memory.wf (m : Memory) : Bool := Memory.wfFrom 0 m

end Sys2Proof.Machine
end

