-- ==== Sys2Proof/Machine/Operands.lean ====
section
/-! DEFINITION. The operand forms (spec/30_encoding.md R48 to R50): a byte of the buffer, its address, the buffer as a
sequence of bytes (spec/20_memory.md R30, R40). -/

namespace Sys2Proof.Machine

/-- `zext_32(b)` (R8, R61): a byte is never sign-extended. -/
def byteOperand (b : Byte) : Word := b.zeroExtend 32

/-- The address of byte `i` of a buffer: `BASE +32 i`, wrapping at the top of the space (R30, R40). -/
def byteAddr (base : Addr) (i : Nat) : Addr := base + BitVec.ofNat 32 i

/-- The addresses of the first `n` bytes of a buffer, ascending (R30, R32). -/
def bufferAddrs (base : Addr) (n : Nat) : List Addr := (List.range n).map (byteAddr base)

/-- The first `n` bytes of a buffer, ascending (R30, R34). -/
def bufferBytes (m : Memory) (base : Addr) (n : Nat) : List Byte := (bufferAddrs base n).map (Memory.read m)

end Sys2Proof.Machine
end

