-- ==== Sys2Proof/Machine/Units.lean ====
section
/-! DEFINITION. The three checksum units (spec/40_checksum_units.md): what a step computes, the micro-operations on
the unit registers, and the units as functions of a byte sequence (R75). -/

namespace Sys2Proof.Machine

/-- What `SUM.STEP(b)` leaves in `SUM` (R62). -/
def sumNext (sum : Word) (b : Byte) : Word := sum + byteOperand b

/-- What `LH.STEP(b)` leaves in `LH` (R65): shifted left by five, less the old value, plus the byte. -/
def lhNext (lh : Word) (b : Byte) : Word := ((lh <<< lhShift) - lh) + byteOperand b

/-- What `CRC.BIT` leaves in `CRC` (R70): the test is on bit 0 before the logical shift. -/
def crcBitNext (crc : Word) : Word :=
  if crc.getLsbD 0 then (crc >>> 1) ^^^ crcPoly else crc >>> 1

/-- `n` times `CRC.BIT`. -/
def crcBits : Nat → Word → Word
  | 0, crc => crc
  | n + 1, crc => crcBits n (crcBitNext crc)

/-- What `CRC.STEP(b)` leaves in `CRC` (R69): the byte into bits 7:0, then eight bit steps. -/
def crcNext (crc : Word) (b : Byte) : Word := crcBits crcStepsPerByte (crc ^^^ byteOperand b)

/-- `SUM.INIT` (R60). -/
def State.sumInit (s : State) : State := { s with sum := sumInitValue }

/-- `SUM.STEP(b)` (R62). -/
def State.sumStep (s : State) (b : Byte) : State := { s with sum := sumNext s.sum b }

/-- `SUM.OUT`, checksum-1 (R63). -/
def State.sumOut (s : State) : Word := s.sum

/-- `LH.INIT` (R64). -/
def State.lhInit (s : State) : State := { s with lh := lhInitValue }

/-- `LH.STEP(b)` (R65). -/
def State.lhStep (s : State) (b : Byte) : State := { s with lh := lhNext s.lh b }

/-- `LH.OUT`, checksum-2 (R67). -/
def State.lhOut (s : State) : Word := s.lh

/-- `CRC.INIT` (R68). -/
def State.crcInit (s : State) : State := { s with crc := crcInitValue }

/-- `CRC.BIT` (R70). -/
def State.crcBit (s : State) : State := { s with crc := crcBitNext s.crc }

/-- `CRC.STEP(b)` (R69). -/
def State.crcStep (s : State) (b : Byte) : State := { s with crc := crcNext s.crc b }

/-- `CRC.OUT`, checksum-3 (R73): the complement is not written back. -/
def State.crcOut (s : State) : Word := ~~~s.crc

/-- `CORE.INIT` (R74). -/
def State.coreInit (s : State) : State := s.sumInit.lhInit.crcInit

/-- `CORE.ABSORB(b)` (R74): the three units take the same byte in one step. -/
def State.coreAbsorb (s : State) (b : Byte) : State := ((s.sumStep b).lhStep b).crcStep b

/-- `SUM` after the bytes `bs` from a fresh start (R75). -/
def sumAfter (bs : List Byte) : Word := bs.foldl sumNext sumInitValue

/-- `LH` after the bytes `bs` from a fresh start (R75). -/
def lhAfter (bs : List Byte) : Word := bs.foldl lhNext lhInitValue

/-- `CRC` after the bytes `bs` from a fresh start, not complemented (R75). -/
def crcAfter (bs : List Byte) : Word := bs.foldl crcNext crcInitValue

/-- `c1(B)` (R63, R75). -/
def checksum1 (bs : List Byte) : Word := sumAfter bs

/-- `c2(B)` (R67, R75). -/
def checksum2 (bs : List Byte) : Word := lhAfter bs

/-- `c3(B)` (R73, R75). -/
def checksum3 (bs : List Byte) : Word := ~~~(crcAfter bs)

end Sys2Proof.Machine
end

