-- ==== Sys2Proof/Machine/Voter.lean ====
section
/-! DEFINITION. The consensus voter (spec/41_voter.md): three words to a word or none. -/

namespace Sys2Proof.Machine

/-- `VOTE` (R80): `some agreed` where `ok` is 1, `none` where it is 0, so that nothing can read `agreed` then (R83). -/
def vote (c1 c2 c3 : Word) : Option Word :=
  if c1 = c2 ∨ c1 = c3 then some c1
  else if c2 = c3 then some c2
  else none

/-- The value the units agree on for a byte sequence (R93): `VOTE(c1(B), c2(B), c3(B))`. -/
def agreedOn (bs : List Byte) : Option Word := vote (checksum1 bs) (checksum2 bs) (checksum3 bs)

end Sys2Proof.Machine
end

