-- ==== Sys2Proof/Machine/Ops.lean ====
section
/-! DEFINITION. The shared operations: the command port and the response port, taking a contract violation and the one
way out of it (reset), the contract check, and the consensus sequence. -/

namespace Sys2Proof.Machine

/-! ### The command port -/

/-- The host's next action is done. -/
def State.takeAction (s : State) : State := { s with host := s.host.tail }

/-- The host presents a word before anything else it was to do. -/
def State.presentFirst (s : State) (cmd : Command) : State := { s with host := .present cmd :: s.host }

/-- Accepting a word copies its fields into the sequencer's registers (R47). -/
def State.accept (s : State) (cmd : Command) : State :=
  { s with opc := opcodeField cmd, len := lenField cmd, base := baseField cmd }

/-- The command the latched registers hold (R58). -/
def State.latchedCommand (s : State) : Except DecodeError Instr := decodeFields s.opc s.len s.base

/-- The host changes a byte of the buffer space (R57). -/
def State.modify (s : State) (a : Addr) (v : Byte) : State := { s with mem := s.mem.write a v }

/-! ### How a command ends -/

/-- `respond(code)` (R9, R54): one response word. -/
def State.respond (s : State) (code : ResultCode) : State := { s with responses := s.responses ++ [code.word] }

/-- `raise ContractViolation(causes)` (R116, R117): the causes are or-ed into `FAULT`, which halts the CORE; no
response, nothing else changes. There is no handler, no vector and no saved register. -/
def State.raise (s : State) (causes : List Cause) : State := { s with fault := s.fault ||| causeMask causes }

/-- A command has ended: between commands the sequencer's registers are unspecified (R16, U7), so each takes a free
value. After a contract violation there is no next command, and they keep what was latched (R117).
DEDUCED, safe, notes/assumptions/6.md. -/
def State.endCommand (s : State) : State :=
  if s.halted then s
  else
    { s with
      idx := Config.freeIdx s.draw
      opc := Config.freeOpc s.draw
      base := Config.freeBase s.draw
      len := Config.freeLen s.draw
      draw := s.draw + 1 }

/-- The reset input (R130, R131): every register of the CORE takes its reset value, the halt ends, the slot is Empty.
What is not the CORE's stays. The seven unspecified registers: DESIGN CHOICE, unsafe, notes/assumptions/4.md, 5.md. -/
def State.applyReset (s : State) : State :=
  { State.reset with mem := s.mem, host := s.host, responses := s.responses, reads := s.reads, draw := s.draw }

/-! ### The contract check -/

/-- The causes `CHECK(BASE, LEN)` finds: both tests are always made (R94, R114). -/
def checkCauses (base : Addr) (len : Len) : List Cause :=
  (if base = nullRef then [.nullref] else []) ++ (if maxLen ≤ len.toNat then [.length] else [])

/-- A command on the operands `base`, `len`, whose work is `body`: a halted CORE executes nothing (R118); the contract
check comes before everything else (R94, R115) and, where it finds a cause, is all that happens (R117). -/
def checkedCommand (base : Addr) (len : Len) (body : State → State) (s : State) : Host.Outcome State Fault Refusal :=
  if s.halted then .fault (.halted s.fault)
  else match checkCauses base len with
    | [] => .next (body s)
    | c :: rest => .next (s.raise (c :: rest))

/-! ### The consensus sequence -/

/-- `MemRead(addr, 1)` (R9, R31): the byte, and the state in which the read has been made. -/
def State.memRead (s : State) (a : Addr) : Byte × State := (s.mem.read a, { s with reads := a :: s.reads })

/-- `IDX <- IDX + 1` (R91). -/
def State.incIdx (s : State) : State := { s with idx := s.idx + 1 }

/-- Step 1, initialise (R90): `CORE.INIT` and `IDX <- 0`. -/
def State.startConsensus (s : State) : State := { s.coreInit with idx := 0 }

/-- One turn of the byte loop (R91): read the byte at `BASE +32 IDX`, hand it to the three units, count. -/
def State.absorbNext (base : Addr) (s : State) : State :=
  ((s.memRead (byteAddr base s.idx.toNat)).2.coreAbsorb (s.memRead (byteAddr base s.idx.toNat)).1).incIdx

/-- Step 2, absorb (R91): the loop body `n` times. -/
def State.absorb (base : Addr) : Nat → State → State
  | 0, s => s
  | n + 1, s => State.absorb base n (s.absorbNext base)

/-- Steps 1 and 2 for a whole buffer. -/
def State.absorbBuffer (s : State) (base : Addr) (len : Len) : State := State.absorb base len.toNat s.startConsensus

/-- Step 3, resolve (R92): the vote on the units' outputs. -/
def State.resolve (s : State) : Option Word := vote s.sumOut s.lhOut s.crcOut

/-! ### The checkpoint slot -/

/-- `SLOT_VALUE <- agreed ; SLOT_VALID <- 1`, one indivisible update (R17, R95). -/
def State.storeSlot (s : State) (agreed : Word) : State := { s with slotValue := agreed, slotValid := true }

/-- What `SAVE` does with the result of the sequence (R95). -/
def State.settleSave (s : State) : Option Word → State
  | some agreed => (s.storeSlot agreed).respond .success
  | none => s.respond .consensusFailure

/-- What `VERIFY` does with the result of the sequence (R97, R99): all 32 bits are compared. -/
def State.settleVerify (s : State) : Option Word → State
  | some agreed => if agreed = s.slotValue then s.respond .success else s.respond .mismatch
  | none => s.respond .consensusFailure

end Sys2Proof.Machine
end

