-- ==== Sys2Proof/Machine/Commands.lean ====
section
/-! DEFINITION. The meanings of the two commands (spec/42_checkpoint_commands.md). -/

namespace Sys2Proof.Machine

/-- `SAVE` past its contract check (R95): consensus, then the slot or -1. -/
def saveBody (base : Addr) (len : Len) (s : State) : State :=
  (s.absorbBuffer base len).settleSave (s.absorbBuffer base len).resolve

/-- `VERIFY` past its contract check (R97, R98): the slot test comes before any read; then consensus, then the
comparison. -/
def verifyBody (base : Addr) (len : Len) (s : State) : State :=
  if s.slotValid then (s.absorbBuffer base len).settleVerify (s.absorbBuffer base len).resolve
  else s.respond .noCheckpoint

/-- `SAVE base, len` (R95). -/
def execSave (base : Addr) (len : Len) (s : State) : Host.Outcome State Fault Refusal :=
  checkedCommand base len (saveBody base len) s

/-- `VERIFY base, len` (R97). -/
def execVerify (base : Addr) (len : Len) (s : State) : Host.Outcome State Fault Refusal :=
  checkedCommand base len (verifyBody base len) s

end Sys2Proof.Machine
end

