-- ==== Sys2Proof/Machine/Dispatch.lean ====
section
/-! DEFINITION. Which meaning each instruction has (spec/30_encoding.md R51, R58). -/

namespace Sys2Proof.Machine

def exec (i : Instr) (s : State) : Host.Outcome State Fault Refusal :=
  match i with
  | .save base len => Sys2Proof.Machine.execSave base len s
  | .verify base len => Sys2Proof.Machine.execVerify base len s

end Sys2Proof.Machine
end

