-- ==== Sys2Proof/Machine/Sequencer.lean ====
section
/-! DEFINITION. What the CORE does with one action of the host (spec/30_encoding.md R45, R58; spec/70_reset_and_hazards.md
R130, R136). -/

namespace Sys2Proof.Machine

/-- The state an outcome leads to, changed by `f`; a stop stays a stop. -/
def mapNext (f : State → State) : Host.Outcome State Fault Refusal → Host.Outcome State Fault Refusal
  | .next s => .next (f s)
  | .fault r => .fault r
  | .refused r => .refused r

/-- Nothing is presented: an idle CORE waits and keeps all its state (R124, R130); a halted one has no enabled step
(R118). -/
def idle (s : State) : Host.Outcome State Fault Refusal :=
  if s.halted then .fault (.halted s.fault) else .next s

/-- A latched word is decoded and executed to completion; an illegal one raises `BADCMD` (R52, R58, R113, R136). -/
def runLatched (s : State) : Host.Outcome State Fault Refusal :=
  match s.latchedCommand with
  | .ok i => mapNext State.endCommand (exec i s)
  | .error _ => .next (s.raise [.badcmd])

/-- A word on the command port: a halted CORE accepts nothing (R47, R118); otherwise accept, decode, execute (R58). -/
def onCommand (cmd : Command) (s : State) : Host.Outcome State Fault Refusal :=
  if s.halted then .fault (.halted s.fault) else runLatched (s.accept cmd)

/-- One action of the host on the machine. A change of the buffer space and the reset input take effect whether or not
the CORE is halted (R57, R118, R130). -/
def onAction (a : HostAction) (s : State) : Host.Outcome State Fault Refusal :=
  match a with
  | .present cmd => onCommand cmd s
  | .modify addr value => .next (s.modify addr value)
  | .assertReset => .next s.applyReset

/-- One step: the host's next action, or an idle step where it has none. -/
def onHost (s : State) : Host.Outcome State Fault Refusal :=
  match s.host with
  | [] => idle s
  | a :: _ => onAction a s.takeAction

end Sys2Proof.Machine
end

