-- ==== Sys2Proof/Machine/Step.lean ====
section
/-! DEFINITION. One step of the machine: one action of the host, a command being one atomic step
(spec/70_reset_and_hazards.md R136). -/

namespace Sys2Proof.Machine

/-- One step. -/
def step (s : State) : Host.Outcome State Fault Refusal := onHost s

/-- `s` with a word of the opcode table presented first: commands reach the CORE on the command port only (R45), so this
is where a step takes its next instruction from (notes/assumptions/2.md). -/
def State.withFetchWord (s : State) (nbits w : Nat) : State := s.presentFirst (commandOfTable nbits w)

end Sys2Proof.Machine
end

