-- ==== Sys2Proof/Machine/Assembler.lean ====
section
/-! DEFINITION. The assembler syntax of spec/30_encoding.md R56, one command a line: a mnemonic or its alias, the
buffer reference, a comma, the length, a comment from `;` on; numbers decimal or `0x` hexadecimal. What R56 leaves open
(blanks, capitals): DESIGN CHOICE, safe, notes/assumptions/14.md. -/

namespace Sys2Proof.Machine

/-- What a line of assembler text is. -/
inductive AsmLine where
  /-- Blanks and a comment at most. -/
  | blank
  /-- A command, its operands not yet checked against their fields (R139). -/
  | request (r : Request)
  /-- Not in the syntax. -/
  | rejected
deriving DecidableEq, Repr

/-- A blank between the parts of a line. -/
def isBlank (c : Char) : Bool := c == ' ' || c == '\t'

/-- A part of a line without the blanks around it. -/
def trimBlanks (cs : List Char) : List Char := ((cs.dropWhile isBlank).reverse.dropWhile isBlank).reverse

/-- The value of a digit, up to radix 16. -/
def digitValue (c : Char) : Option Nat :=
  if '0' ≤ c ∧ c ≤ '9' then some (c.toNat - 48)
  else if 'a' ≤ c ∧ c ≤ 'f' then some (c.toNat - 87)
  else if 'A' ≤ c ∧ c ≤ 'F' then some (c.toNat - 55)
  else none

/-- The digits of a number, each below the radix, after the value read so far. -/
def readDigits (radix : Nat) : List Char → Nat → Option Nat
  | [], n => some n
  | c :: cs, n =>
    match digitValue c with
    | some d => if d < radix then readDigits radix cs (n * radix + d) else none
    | none => none

/-- A number, decimal or `0x` hexadecimal (R56). -/
def readNumber : List Char → Option Nat
  | [] => none
  | ['0', 'x'] => none
  | '0' :: 'x' :: cs => readDigits 16 cs 0
  | cs => readDigits 10 cs 0

/-- The command a mnemonic or an alias names (R51, R56). -/
def requestNamed (name : List Char) : Option (Nat → Nat → Request) :=
  if name = "SAVE".toList ∨ name = "save_checkpoint".toList then some .save
  else if name = "VERIFY".toList ∨ name = "verify_checkpoint".toList then some .verify
  else none

/-- The request of a mnemonic and the text of its two operands. -/
def readRequest (name base len : List Char) : AsmLine :=
  match requestNamed name, readNumber base, readNumber len with
  | some make, some b, some l => .request (make b l)
  | _, _, _ => .rejected

/-- The operands of a line: what stands before its first comma, and after it. -/
def readOperands (name rest : List Char) : AsmLine :=
  match rest.dropWhile (· != ',') with
  | [] => .rejected
  | _ :: len => readRequest name (trimBlanks (rest.takeWhile (· != ','))) (trimBlanks len)

/-- Read one line (R56). -/
def readLine (line : List Char) : AsmLine :=
  match trimBlanks (line.takeWhile (· != ';')) with
  | [] => .blank
  | c :: cs => readOperands ((c :: cs).takeWhile (fun x => !isBlank x)) ((c :: cs).dropWhile (fun x => !isBlank x))

/-- The command word of one line; none where it is blank, not in the syntax, or an operand does not fit (R139). -/
def assemble (line : List Char) : Option Command :=
  match readLine line with
  | .request r => r.toInstr.map encode
  | .blank => none
  | .rejected => none

end Sys2Proof.Machine
end

