-- ==== Sys2Proof/Safety.lean ====
section
/-! DEFINITION. The terms claims use: a good state, the contract of a command, the machine's invariant, runs; and the
reference machine, the CORE as its software reads: three separate passes in closed form, a count of equal checksums, an
optional checkpoint (spec/42_checkpoint_commands.md R93, spec/40_checksum_units.md R63, R66, R71). -/

namespace Sys2Proof.Machine

/-! ### Good states -/

/-- The CORE is not halted: a state with `FAULT ≠ 0` is never a good final state (R21, R116). -/
abbrev State.running (s : State) : Prop := s.fault = 0

/-- The contract of a command: a non-null reference and a length below the ceiling (R94). -/
abbrev contractKept (base : Addr) (len : Len) : Prop := base ≠ 0 ∧ len.toNat < 1048576

/-- The four response words there are (R54). -/
def responseWords : List Word := [0x00000000, 0xFFFFFFFF, 0xFFFFFFFE, 0xFFFFFFFD]

/-- What holds of every state a run reaches: the buffer space is in its canonical form, every response is one of the
four, and an Empty slot still holds its reset value (R19, R25). -/
abbrev State.Inv (s : State) : Prop :=
  s.mem.wf = true ∧ (∀ r ∈ s.responses, r ∈ responseWords) ∧ (s.slotValid = false → s.slotValue = 0x00000000)

/-! ### Runs -/

/-- `n` steps from a state, stopping at the first stop: the interface's own run of the machine
(`runSteps_eq_core_run` in Laws/Runs.lean). -/
def runSteps : Nat → State → Host.Outcome State Fault Refusal
  | 0, s => .next s
  | n + 1, s =>
    match step s with
    | .next u => runSteps n u
    | .fault r => .fault r
    | .refused r => .refused r

/-- An action other than the reset input. -/
def HostAction.keepsRunning : HostAction → Bool
  | .assertReset => false
  | .present _ => true
  | .modify _ _ => true

/-- Changes of the buffer space, one after the other. -/
def modifyAll (m : Memory) (changes : List (Addr × Byte)) : Memory :=
  changes.foldl (fun m c => m.write c.1 c.2) m

/-! ### The reference machine -/

/-- Checksum-1 in closed form (R63). -/
def refChecksum1 (bs : List Byte) : Word := BitVec.ofNat 32 (bs.map BitVec.toNat).sum

/-- The polynomial of checksum-2: byte `i` of `n` has the weight `31^(n-1-i)` (R66). -/
def hashPoly : List Byte → Nat
  | [] => 0
  | b :: bs => 31 ^ bs.length * b.toNat + hashPoly bs

/-- Checksum-2 in closed form (R66, with `LH_INIT` = 0). -/
def refChecksum2 (bs : List Byte) : Word := BitVec.ofNat 32 (hashPoly bs)

/-- `T[k]` of the table form (R71): eight bit steps on the 32-bit value `k`. -/
def crcTable (k : Word) : Word := crcBits 8 k

/-- `CRC.STEP` in its table form (R71). -/
def crcTableStep (crc : Word) (b : Byte) : Word :=
  crcTable ((crc ^^^ b.zeroExtend 32) &&& 0x000000FF) ^^^ (crc >>> 8)

/-- Checksum-3 by table (R71, R73). -/
def refChecksum3 (bs : List Byte) : Word := ~~~(bs.foldl crcTableStep 0xFFFFFFFF)

/-- The value at least two of three words share (R81). -/
def refVote (c1 c2 c3 : Word) : Option Word := [c1, c2, c3].find? (fun v => decide (2 ≤ [c1, c2, c3].count v))

/-- What the reference machine agrees on for a buffer. -/
def refAgreed (bs : List Byte) : Option Word := refVote (refChecksum1 bs) (refChecksum2 bs) (refChecksum3 bs)

/-- What the reference machine remembers. -/
structure RefState where
  /-- The buffer space. -/
  mem : Memory
  /-- The checkpoint: none is Empty (R19). -/
  slot : Option Word
  /-- The causes of a halt; 0 where there is none (R21). -/
  causes : BitVec 3
  /-- The answers so far. -/
  answers : List Word
deriving DecidableEq, Repr

/-- The bytes a command is about. -/
def refBuffer (m : Memory) (base n : Nat) : List Byte :=
  (List.range n).map (fun i => m.read (BitVec.ofNat 32 (base + i)))

/-- A save of a buffer (R95). -/
def refSave (bs : List Byte) (r : RefState) : RefState :=
  match refAgreed bs with
  | some v => { r with slot := some v, answers := r.answers ++ [0x00000000] }
  | none => { r with answers := r.answers ++ [0xFFFFFFFF] }

/-- A verify of a buffer (R97). -/
def refVerify (bs : List Byte) (r : RefState) : RefState :=
  match r.slot, refAgreed bs with
  | none, _ => { r with answers := r.answers ++ [0xFFFFFFFE] }
  | some _, none => { r with answers := r.answers ++ [0xFFFFFFFF] }
  | some v, some w => { r with answers := r.answers ++ [if w = v then 0x00000000 else 0xFFFFFFFD] }

/-- A command word, read as a number (R46): opcode, then both contract tests, then the command (R58, R94, R114). -/
def refCommand (w : Nat) (r : RefState) : RefState :=
  if w % 256 = 1 ∨ w % 256 = 2 then
    if w / 2 ^ 32 = 0 ∨ 1048576 ≤ w / 256 % 2 ^ 24 then
      { r with causes := BitVec.ofNat 3 ((if w / 2 ^ 32 = 0 then 1 else 0) + (if 1048576 ≤ w / 256 % 2 ^ 24 then 2 else 0)) }
    else if w % 256 = 1 then refSave (refBuffer r.mem (w / 2 ^ 32) (w / 256 % 2 ^ 24)) r
    else refVerify (refBuffer r.mem (w / 2 ^ 32) (w / 256 % 2 ^ 24)) r
  else { r with causes := 0b100 }

/-- One action of the host on the reference machine. -/
def refAction (r : RefState) : HostAction → RefState
  | .present cmd => refCommand cmd.toNat r
  | .modify a v => { r with mem := r.mem.write a v }
  | .assertReset => { r with slot := none, causes := 0b000 }

/-- The reference machine's view of a state. -/
def State.toRef (s : State) : RefState where
  mem := s.mem
  slot := if s.slotValid then some s.slotValue else none
  causes := s.fault
  answers := s.responses

end Sys2Proof.Machine
end

