-- ==== Sys2Proof/Certificates/Slice0/Obligations.lean ====
section
/-! DEFINITION. The statements about the machine, each from the rules of spec/ its docstring names. A byte sequence is
`bufferBytes`; the reference forms are in Safety.lean. -/

namespace Sys2Proof.Machine

/-- The causes a legal command word sets in `FAULT` (R94, R111, R112, R114): bit 0 for a null reference, bit 1 for a
length at the ceiling or above. -/
def violationBits (base : Addr) (len : Len) : BitVec 3 :=
  (if base = 0 then 0b001 else 0b000) ||| (if 1048576 ≤ len.toNat then 0b010 else 0b000)

/-- `s` after the units have taken a whole buffer (R26, R90, R91): the three units hold what the bytes leave in them,
`IDX` is `LEN`, and the buffer's addresses have been read, ascending. -/
def State.withBufferTaken (s : State) (base : Addr) (len : Len) : State :=
  { s with
    sum := sumAfter (bufferBytes s.mem base len.toNat)
    lh := lhAfter (bufferBytes s.mem base len.toNat)
    crc := crcAfter (bufferBytes s.mem base len.toNat)
    idx := len
    reads := (bufferAddrs base len.toNat).reverse ++ s.reads }

/-- The actions that leave the CORE's registers to the commands: no reset. -/
abbrev State.noResetAhead (s : State) : Prop := ∀ a ∈ s.host, a.keepsRunning = true

open Polynomial in
/-- A 32-bit value as a polynomial over GF(2), the coefficient of x^31 in bit 0 (R70). -/
noncomputable def gf2Word (r : Word) : (ZMod 2)[X] :=
  ∑ i ∈ Finset.range 32, if r.getLsbD i then X ^ (31 - i) else 0

open Polynomial in
/-- A byte sequence as a polynomial over GF(2): first byte highest, bit 0 of a byte before bit 7 (R34, R35). -/
noncomputable def gf2Message (bs : List Byte) : (ZMod 2)[X] :=
  ∑ k ∈ Finset.range bs.length, ∑ i ∈ Finset.range 8,
    if (bs.getD k 0).getLsbD i then X ^ (8 * (bs.length - 1 - k) + (7 - i)) else 0

open Polynomial in
/-- The CRC-32 generator polynomial, term by term (R70). -/
noncomputable def crcGenerator : (ZMod 2)[X] :=
  X ^ 32 + X ^ 26 + X ^ 23 + X ^ 22 + X ^ 16 + X ^ 12 + X ^ 11 + X ^ 10 + X ^ 8 + X ^ 7 + X ^ 5 + X ^ 4 + X ^ 2 + X + 1

end Sys2Proof.Machine

open Sys2Proof Sys2Proof.Machine

/-! ### Encoding -/

/-- R46, R58: every command, every operand value, survives encoding and decoding. -/
def Obligations.CommandWordRoundTrip : Prop := ∀ i : Instr, decode (encode i) = .ok i

/-- R46, R53: a word that decodes is the encoding of what it decodes to, so no two words are one command. -/
def Obligations.DecodedWordReencodes : Prop := ∀ (w : Command) (i : Instr), decode w = .ok i → encode i = w

/-- R46: all 64 bits belong to a field, and a word is `BASE * 2^32 + LEN * 2^8 + OPC`, read and written. -/
def Obligations.CommandWordIsTheSumOfItsFields : Prop :=
  (∀ w : Command, w.toNat = (baseField w).toNat * 2 ^ 32 + (lenField w).toNat * 2 ^ 8 + (opcodeField w).toNat) ∧
  (∀ i : Instr, (encode i).toNat = i.base.toNat * 2 ^ 32 + i.len.toNat * 2 ^ 8 + i.opcode.toNat)

/-- R51: the map by match and mask; the low byte alone selects the command, and every other value is reserved. -/
def Obligations.OpcodeMapIsExact : Prop :=
  ∀ w : Command,
    (w &&& 0x00000000000000FF = 0x0000000000000001 → decode w = .ok (.save (baseField w) (lenField w))) ∧
    (w &&& 0x00000000000000FF = 0x0000000000000002 → decode w = .ok (.verify (baseField w) (lenField w))) ∧
    (w &&& 0x00000000000000FF ≠ 0x0000000000000001 → w &&& 0x00000000000000FF ≠ 0x0000000000000002 →
      decode w = .error (.reservedOpcode (opcodeField w)))

/-- 95_test_vectors.md 2.7 and R58's worked example: words of the spec and the commands they stand for. -/
def Obligations.WordsOfTheSpecDecode : Prop :=
  decode 0x0000100000010001 = .ok (.save 0x00001000 256) ∧
  decode 0x0000101000000202 = .ok (.verify 0x00001010 2) ∧
  decode 0x000010000FFFFF01 = .ok (.save 0x00001000 0x0FFFFF) ∧
  decode 0x0000000010000002 = .ok (.verify 0x00000000 0x100000) ∧
  decode 0xFFFFFFFE00000401 = .ok (.save 0xFFFFFFFE 4) ∧
  decode 0x0000100000000103 = .error (.reservedOpcode 0x03) ∧
  decode 0x0000000000000000 = .error (.reservedOpcode 0x00)

/-- R48, R139: a request becomes a command exactly where both operands fit their fields, and nothing is truncated. -/
def Obligations.RequestsAreRangeChecked : Prop :=
  ∀ r : Request,
    (r.toInstr = none ↔ ¬(r.base < 2 ^ 32 ∧ r.len < 2 ^ 24)) ∧ (∀ i, r.toInstr = some i → i.toRequest = r)

/-- R56: the mnemonics, their aliases, both number forms, the comment. -/
def Obligations.AssemblerReadsTheSyntax : Prop :=
  assemble "SAVE    0x00001000, 256      ; e.g.".toList = some 0x0000100000010001 ∧
  assemble "VERIFY  0x00001000, 256".toList = some 0x0000100000010002 ∧
  assemble "save_checkpoint 8192, 1".toList = some 0x0000200000000101 ∧
  assemble "verify_checkpoint 0x00002000, 0x1".toList = some 0x0000200000000102 ∧
  assemble "; a comment".toList = none ∧
  assemble "SAVE 0x00001000, 0x01000010".toList = none

/-! ### The checksum units -/

/-- R62: `SUM.STEP` adds the unsigned byte modulo 2^32 and writes `SUM` only; the order of bytes does not matter. -/
def Obligations.SumStepAddsTheByte : Prop :=
  (∀ (s : State) (b : Byte), (s.sumStep b).sum.toNat = (s.sum.toNat + b.toNat) % 2 ^ 32 ∧
    s.sumStep b = { s with sum := (s.sumStep b).sum }) ∧
  (∀ (a : Word) (bs bs' : List Byte), bs.Perm bs' → bs.foldl sumNext a = bs'.foldl sumNext a)

/-- R63: checksum-1 is the byte sum modulo 2^32; through the command interface it never wraps. -/
def Obligations.SumClosedForm : Prop :=
  (∀ s : State, s.sumOut = s.sum) ∧ checksum1 [] = 0x00000000 ∧
  checksum1 [0x31, 0x32, 0x33, 0x34, 0x35, 0x36, 0x37, 0x38, 0x39] = 0x000001DD ∧
  ∀ bs : List Byte, (checksum1 bs).toNat = (bs.map BitVec.toNat).sum % 2 ^ 32 ∧
    (bs.length ≤ 1048575 → (checksum1 bs).toNat = (bs.map BitVec.toNat).sum ∧ (checksum1 bs).toNat ≤ 0x0FEFFF01)

/-- R65: `LH.STEP`, each of its three operations reduced modulo 2^32, writes `LH` only; the order of the subtraction and
the addition and when one reduces do not matter; its corner cases. -/
def Obligations.LinearHashStep : Prop :=
  (∀ (s : State) (b : Byte),
    (s.lhStep b).lh.toNat = ((s.lh.toNat * 32 % 2 ^ 32 + 2 ^ 32 - s.lh.toNat) % 2 ^ 32 + b.toNat) % 2 ^ 32 ∧
    s.lhStep b = { s with lh := (s.lhStep b).lh } ∧
    (s.lhStep b).lh = ((s.lh <<< 5) + b.zeroExtend 32) - s.lh ∧
    ((s.lhStep b).lh.toNat : Int) = ((s.lh.toNat : Int) * 32 - s.lh.toNat + b.toNat) % 2 ^ 32) ∧
  lhNext 0x00000000 0x00 = 0x00000000 ∧ lhNext 0x00000001 0x00 = 0x0000001F ∧
  lhNext 0x08000001 0x00 = 0xF800001F ∧ lhNext 0xFFFFFFFF 0xFF = 0x000000E0 ∧ lhNext 0x00000031 0x32 = 0x00000621

/-- R66: the closed form from any start; the order of bytes matters; with the start 0, leading zero bytes leave
checksum-2 equal to checksum-1. -/
def Obligations.LinearHashClosedForm : Prop :=
  (∀ (h : Word) (bs : List Byte),
    (bs.foldl lhNext h).toNat = (31 ^ bs.length * h.toNat + hashPoly bs) % 2 ^ 32) ∧
  checksum2 [] = 0x00000000 ∧ checksum2 [0x01, 0x00] ≠ checksum2 [0x00, 0x01] ∧
  (∀ (n : Nat) (b : Byte), checksum2 (List.replicate n 0x00 ++ [b]) = checksum1 (List.replicate n 0x00 ++ [b]))

/-- R69: `CRC.STEP` is the exclusive-or of the byte and eight `CRC.BIT`, and writes `CRC` only; a zero byte leaves
`CRC` alone only where it is zero. -/
def Obligations.CrcStepIsEightBitSteps : Prop :=
  (∀ (s : State) (b : Byte), s.crcStep b = State.crcBit^[8] { s with crc := s.crc ^^^ b.zeroExtend 32 }) ∧
  (∀ c : Word, crcNext c 0x00 = c ↔ c = 0x00000000) ∧
  crcNext 0xFFFFFFFF 0xFF = 0x00FFFFFF ∧ crcNext 0xFFFFFFFF 0x61 = 0x174841BC

/-- R70: the bit step tests bit 0 before a logical shift; its corner cases. -/
def Obligations.CrcBitStep : Prop :=
  (∀ s : State, s.crcBit =
    { s with crc := if s.crc.toNat % 2 = 1 then (s.crc >>> 1) ^^^ 0xEDB88320 else s.crc >>> 1 }) ∧
  (∀ c : Word, (c >>> 1).toNat = c.toNat / 2) ∧
  crcBitNext 0x00000001 = 0xEDB88320 ∧ crcBitNext 0x00000002 = 0x00000001 ∧ crcBitNext 0x80000000 = 0x40000000 ∧
  crcBitNext 0xFFFFFFFF = 0x92477CDF ∧ crcBitNext 0x00000000 = 0x00000000 ∧ crcBitNext 0xFFFFFF9E = 0x7FFFFFCF ∧
  crcBitNext 0x7FFFFFCF = 0xD2477CC7

open Polynomial in
/-- R70: one bit step multiplies the register's polynomial by x modulo the generator, so the constant is that
generator, reversed. -/
def Obligations.CrcBitMultipliesByX : Prop :=
  ∀ c : Word, gf2Word (crcBitNext c) = X * gf2Word c + (if c.getLsbD 0 then crcGenerator else 0)

/-- R70: with the register's bits reversed, a bit step is the shift to the left with the unreflected constant
0x04C11DB7. -/
def Obligations.CrcBitReflected : Prop :=
  ∀ c : Word, (crcBitNext c).reverse =
    if c.reverse.msb then (c.reverse <<< 1) ^^^ 0x04C11DB7 else c.reverse <<< 1

/-- R71: the table form, and the eight steps as a linear map of the register's and the byte's bits. -/
def Obligations.CrcTableForm : Prop :=
  (∀ (c : Word) (b : Byte), crcNext c b = crcTableStep c b) ∧
  (∀ (c c' : Word) (b b' : Byte), crcNext (c ^^^ c') (b ^^^ b') = crcNext c b ^^^ crcNext c' b') ∧
  crcTable 0 = 0x00000000 ∧ crcTable 1 = 0x77073096 ∧ crcTable 255 = 0x2D02EF8D

/-- R73: the output is the complement, the register keeps its value, and the source's two check values come out. -/
def Obligations.CrcOutAndCheckValues : Prop :=
  (∀ s : State, s.crcOut = s.crc ^^^ 0xFFFFFFFF) ∧ (∀ s : State, s.crcInit.crcOut = 0x00000000) ∧
  checksum3 [] = 0x00000000 ∧
  crcAfter [0x31, 0x32, 0x33, 0x34, 0x35, 0x36, 0x37, 0x38, 0x39] = 0x340BC6D9 ∧
  checksum3 [0x31, 0x32, 0x33, 0x34, 0x35, 0x36, 0x37, 0x38, 0x39] = 0xCBF43926

open Polynomial in
/-- R69 to R73: for every message the register is the remainder, modulo the generator, of the initial value's and the
message's polynomials. -/
def Obligations.CrcIsThePolynomialRemainder : Prop :=
  ∀ bs : List Byte, gf2Word (crcAfter bs) =
    (X ^ (8 * bs.length) * gf2Word 0xFFFFFFFF + X ^ 32 * gf2Message bs) %ₘ crcGenerator

/-- R74: the composites are their three parts in any order, and touch the three unit registers only. -/
def Obligations.UnitStepsAreIndependent : Prop :=
  (∀ (s : State) (b : Byte),
    s.coreAbsorb b = ((s.sumStep b).lhStep b).crcStep b ∧ s.coreAbsorb b = ((s.crcStep b).lhStep b).sumStep b ∧
    s.coreAbsorb b = ((s.lhStep b).crcStep b).sumStep b ∧
    s.coreAbsorb b = { s with sum := sumNext s.sum b, lh := lhNext s.lh b, crc := crcNext s.crc b }) ∧
  (∀ s : State, s.coreInit = s.sumInit.lhInit.crcInit ∧ s.coreInit = s.crcInit.lhInit.sumInit ∧
    s.coreInit = { s with sum := 0x00000000, lh := 0x00000000, crc := 0xFFFFFFFF })

/-- R75: the units' outputs after `CORE.INIT` and the bytes depend on the bytes alone. -/
def Obligations.ChecksumsDependOnTheBytesAlone : Prop :=
  (∀ (s : State) (bs : List Byte),
    (bs.foldl State.coreAbsorb s.coreInit).sumOut = checksum1 bs ∧
    (bs.foldl State.coreAbsorb s.coreInit).lhOut = checksum2 bs ∧
    (bs.foldl State.coreAbsorb s.coreInit).crcOut = checksum3 bs) ∧
  checksum1 [] = 0x00000000 ∧ checksum2 [] = 0x00000000 ∧ checksum3 [] = 0x00000000

/-! ### The voter -/

/-- R80, R81: the three branches; a value is agreed exactly where at least two inputs share it. -/
def Obligations.VoteIsTheSharedValue : Prop :=
  ∀ c1 c2 c3 : Word,
    (c1 = c2 ∨ c1 = c3 → vote c1 c2 c3 = some c1) ∧
    (c1 ≠ c2 → c1 ≠ c3 → c2 = c3 → vote c1 c2 c3 = some c2) ∧
    (c1 ≠ c2 → c1 ≠ c3 → c2 ≠ c3 → vote c1 c2 c3 = none) ∧
    (∀ v, vote c1 c2 c3 = some v ↔ 2 ≤ [c1, c2, c3].count v)

/-- R104 (a): when checksum-1 and checksum-2 agree. -/
def Obligations.SumAndHashAgreeIff : Prop :=
  ∀ bs : List Byte, checksum1 bs = checksum2 bs ↔
    (∑ i ∈ Finset.range bs.length, (31 ^ (bs.length - 1 - i) - 1) * (bs.getD i 0).toNat) % 2 ^ 32 = 0

/-- R104 (b), (c), 95_test_vectors.md 2.5: the three ways to agree occur, and so does disagreement. -/
def Obligations.KnownBuffers : Prop :=
  agreedOn [] = some 0x00000000 ∧ agreedOn [0x05] = some 0x00000005 ∧ agreedOn [0x00, 0x05] = some 0x00000005 ∧
  agreedOn [0x01, 0xFB, 0x15, 0xD7, 0x0D] = some 0x000001F5 ∧ agreedOn [0x4F, 0xDA, 0xE1, 0xB2] = some 0x0027379C ∧
  agreedOn [0x01, 0x00] = none ∧ agreedOn [0x31, 0x32, 0x33, 0x34, 0x35, 0x36, 0x37, 0x38, 0x39] = none

/-! ### SAVE and VERIFY -/

/-- R95: `SAVE` answers a next state on every operand pair of a running CORE: consensus stores and answers 0, no
consensus answers -1 and leaves the slot, a broken contract raises; nothing else changes. -/
def Obligations.SaveMeaning : Prop :=
  ∀ (base : Addr) (len : Len) (s : State), s.running →
    (contractKept base len → exec (.save base len) s = .next
      (match agreedOn (bufferBytes s.mem base len.toNat) with
        | some v => { s.withBufferTaken base len with
            slotValue := v, slotValid := true, responses := s.responses ++ [0x00000000] }
        | none => { s.withBufferTaken base len with responses := s.responses ++ [0xFFFFFFFF] })) ∧
    (¬contractKept base len → exec (.save base len) s = .next { s with fault := violationBits base len })

/-- R97: `VERIFY` answers a next state on every operand pair of a running CORE: the contract first, then the slot
test, then consensus, then the comparison; the slot never changes. -/
def Obligations.VerifyMeaning : Prop :=
  ∀ (base : Addr) (len : Len) (s : State), s.running →
    (contractKept base len → s.slotValid = true → exec (.verify base len) s = .next
      { s.withBufferTaken base len with
        responses := s.responses ++
          ([match agreedOn (bufferBytes s.mem base len.toNat) with
            | some v => if v = s.slotValue then 0x00000000 else 0xFFFFFFFD
            | none => 0xFFFFFFFF] : List Word) }) ∧
    (contractKept base len → s.slotValid = false →
      exec (.verify base len) s = .next { s with responses := s.responses ++ [0xFFFFFFFE] }) ∧
    (¬contractKept base len → exec (.verify base len) s = .next { s with fault := violationBits base len })

/-- R96 (a): `SAVE` of the empty buffer reads nothing and stores 0. -/
def Obligations.SaveOfTheEmptyBuffer : Prop :=
  ∀ (base : Addr) (s : State), s.running → base ≠ 0 →
    exec (.save base 0) s = .next { s with
      sum := 0x00000000, lh := 0x00000000, crc := 0xFFFFFFFF, idx := 0
      slotValue := 0x00000000, slotValid := true, responses := s.responses ++ [0x00000000] }

/-- R32, R33: which addresses a command reads: each of its buffer once, ascending, or none; and it writes none. -/
def Obligations.ReadsExactlyTheBuffer : Prop :=
  (∀ (i : Instr) (s t : State), exec i s = .next t →
    (contractKept i.base i.len → (i.opcode = 0x01 ∨ s.slotValid = true) →
      t.reads = (bufferAddrs i.base i.len.toNat).reverse ++ s.reads) ∧
    (¬contractKept i.base i.len ∨ (i.opcode = 0x02 ∧ s.slotValid = false) → t.reads = s.reads)) ∧
  (∀ (base : Addr) (len : Len), (bufferAddrs base len.toNat).Nodup ∧
    ∀ i, i < len.toNat → (bufferAddrs base len.toNat)[i]? = some (base + BitVec.ofNat 32 i))

/-- R17, R33, R93, R97: the frame of both commands. No byte of the buffer space, no latched register and no future
action of the host changes; `VERIFY` leaves the slot alone; a response leaves `FAULT` alone. -/
def Obligations.CommandFrame : Prop :=
  ∀ (i : Instr) (s t : State), exec i s = .next t →
    (∀ a : Addr, t.mem.read a = s.mem.read a) ∧ t.mem = s.mem ∧ t.host = s.host ∧
    t.opc = s.opc ∧ t.base = s.base ∧ t.len = s.len ∧ t.draw = s.draw ∧
    (i.opcode = 0x02 → t.slotValue = s.slotValue ∧ t.slotValid = s.slotValid) ∧
    (s.slotValid = true → t.slotValid = true) ∧
    (t.responses ≠ s.responses → t.fault = s.fault) ∧
    (t.fault ≠ s.fault → t = { s with fault := t.fault })

/-- R90, R133: what the units and `IDX` held before does not matter to a command that uses them. -/
def Obligations.UnitsAreInitialisedFirst : Prop :=
  ∀ (i : Instr) (s : State) (u l c : Word) (x : Len), s.running → contractKept i.base i.len →
    (i.opcode = 0x01 ∨ s.slotValid = true) →
    exec i { s with sum := u, lh := l, crc := c, idx := x } = exec i s

/-- R26: what the unit registers hold after a command on the command port. -/
def Obligations.UnitRegistersAfterACommand : Prop :=
  ∀ (s : State) (i : Instr) (rest : List HostAction), s.running → s.host = .present (encode i) :: rest →
    ∃ t, step s = .next t ∧
      (contractKept i.base i.len → (i.opcode = 0x01 ∨ s.slotValid = true) →
        t.sum = sumAfter (bufferBytes s.mem i.base i.len.toNat) ∧
        t.lh = lhAfter (bufferBytes s.mem i.base i.len.toNat) ∧
        t.crc = crcAfter (bufferBytes s.mem i.base i.len.toNat)) ∧
      (¬contractKept i.base i.len ∨ (i.opcode = 0x02 ∧ s.slotValid = false) →
        t.sum = s.sum ∧ t.lh = s.lh ∧ t.crc = s.crc)

/-- R16, R91: the byte counter counts the bytes taken and never reaches the ceiling, so it never wraps. -/
def Obligations.ByteCounterNeverWraps : Prop :=
  ∀ (s : State) (base : Addr) (len : Len) (k : Nat), contractKept base len → k ≤ len.toNat →
    (State.absorb base k s.startConsensus).idx.toNat = k ∧
    (State.absorb base k s.startConsensus).idx.toNat ≤ 0x0FFFFF

/-- R40: byte `i` of a buffer is at `(BASE + i) mod 2^32`; a buffer may wrap and holds address 0 then. -/
def Obligations.BufferAddressesWrap : Prop :=
  (∀ (base : Addr) (i : Nat), (byteAddr base i).toNat = (base.toNat + i) % 2 ^ 32) ∧
  bufferAddrs 0xFFFFFFFE 4 = [0xFFFFFFFE, 0xFFFFFFFF, 0x00000000, 0x00000001]

/-- R103: the outcome of a command depends on `FAULT`, the slot, the opcode, the length, whether the reference is null,
and the bytes of the buffer only. -/
def Obligations.OutcomeDependsOnTheBytesAlone : Prop :=
  ∀ (i j : Instr) (s t s' t' : State),
    i.opcode = j.opcode → i.len = j.len → (i.base = 0 ↔ j.base = 0) →
    s.slotValid = t.slotValid → s.slotValue = t.slotValue →
    bufferBytes s.mem i.base i.len.toNat = bufferBytes t.mem j.base j.len.toNat →
    exec i s = .next s' → exec j t = .next t' →
    ∃ new : List Word, s'.responses = s.responses ++ new ∧ t'.responses = t.responses ++ new ∧
      s'.fault = t'.fault ∧ s'.slotValid = t'.slotValid ∧ s'.slotValue = t'.slotValue

/-! ### Responses and contract violations -/

/-- R54: the words of the four codes; which of them each command gives. -/
def Obligations.ResponseCodes : Prop :=
  (∀ c : ResultCode, c.word.toInt = c.toInt) ∧
  ResultCode.success.word = 0x00000000 ∧ ResultCode.consensusFailure.word = 0xFFFFFFFF ∧
  ResultCode.noCheckpoint.word = 0xFFFFFFFE ∧ ResultCode.mismatch.word = 0xFFFFFFFD ∧
  (∀ (i : Instr) (s t : State), exec i s = .next t →
    t.responses = s.responses ∨
    (∃ r ∈ responseWords, t.responses = s.responses ++ [r] ∧
      (i.opcode = 0x01 → r = 0x00000000 ∨ r = 0xFFFFFFFF)))

/-- R45, R125, R143: a running CORE ends every command word with exactly one response, not halted, or halted with
none. -/
def Obligations.EveryCommandAnswersOrHalts : Prop :=
  ∀ (s : State) (cmd : Command) (rest : List HostAction), s.running → s.host = .present cmd :: rest →
    ∃ t, step s = .next t ∧ t.host = rest ∧
      ((t.fault = 0 ∧ ∃ r ∈ responseWords, t.responses = s.responses ++ [r]) ∨
       (t.fault ≠ 0 ∧ t.responses = s.responses))

/-- R114: the opcode is tested first and alone; otherwise every cause that applies is set. -/
def Obligations.EveryApplicableCauseIsSet : Prop :=
  ∀ (s : State) (cmd : Command) (rest : List HostAction), s.running → s.host = .present cmd :: rest →
    ∃ t, step s = .next t ∧
      (opcodeField cmd ≠ 0x01 → opcodeField cmd ≠ 0x02 → t.fault = 0b100) ∧
      (opcodeField cmd = 0x01 ∨ opcodeField cmd = 0x02 →
        (t.fault.getLsbD 0 = true ↔ baseField cmd = 0) ∧
        (t.fault.getLsbD 1 = true ↔ 1048576 ≤ (lenField cmd).toNat) ∧ t.fault.getLsbD 2 = false)

/-- R47, R113, R117: an illegal word halts the CORE with `BADCMD` alone, whatever its other fields hold. That those fields
are latched, where R52 says that no register other than `FAULT` changes, is the model's reading, DEDUCED from R47 and
R117 (notes/assumptions/10.md). -/
def Obligations.IllegalWordHalts : Prop :=
  ∀ (s : State) (cmd : Command) (rest : List HostAction), s.running → s.host = .present cmd :: rest →
    opcodeField cmd ≠ 0x01 → opcodeField cmd ≠ 0x02 →
    step s = .next { s with
      host := rest, opc := opcodeField cmd, len := lenField cmd, base := baseField cmd, fault := 0b100 }

/-- R116, R117: a step that halts the CORE changes `FAULT` and the latched command fields, and nothing else. -/
def Obligations.ViolationsArePrecise : Prop :=
  ∀ s t : State, s.running → step s = .next t → t.fault ≠ 0 →
    ∃ cmd rest, s.host = .present cmd :: rest ∧
      t = { s with
        host := rest, opc := opcodeField cmd, len := lenField cmd, base := baseField cmd, fault := t.fault }

/-- R118: a halted CORE accepts no word and has no step of its own; whatever the host does short of a reset leaves every
register and both logs as they are; a reset leads on, to an Empty slot. That a stop stands for "no enabled step", and
that the host's other actions still land, is the model's (notes/assumptions/12.md). -/
def Obligations.HaltedIsTerminal : Prop :=
  (∀ s : State, ¬s.running → s.host = [] → step s = .fault (.halted s.fault)) ∧
  (∀ (s : State) (cmd : Command) (rest : List HostAction), ¬s.running → s.host = .present cmd :: rest →
    step s = .fault (.halted s.fault)) ∧
  (∀ (n : Nat) (s t : State), ¬s.running → s.noResetAhead → runSteps n s = .next t →
    t = { s with mem := t.mem, host := t.host }) ∧
  (∀ (s : State) (rest : List HostAction), s.host = .assertReset :: rest →
    ∃ t, step s = .next t ∧ t.running ∧ t.slotValid = false)

/-- R21: `FAULT` is sticky: no step clears a bit of it but the reset input, which clears all. -/
def Obligations.FaultIsSticky : Prop :=
  ∀ s t : State, step s = .next t →
    (s.host.head? ≠ some .assertReset → s.fault &&& t.fault = s.fault) ∧
    (s.host.head? = some .assertReset → t.fault = 0b000)

/-! ### Reset, the idle CORE, the host -/

/-- R130: the reset state and the reset input, from any state; nothing else empties the slot or ends a halt. That the
buffer space, the host's later actions and both logs stay is the model's (notes/assumptions/5.md). -/
def Obligations.ResetIsTheOnlyWayBack : Prop :=
  State.reset.slotValid = false ∧ State.reset.slotValue = 0x00000000 ∧ State.reset.fault = 0b000 ∧
  (∀ (s : State) (rest : List HostAction), s.host = .assertReset :: rest →
    ∃ t, step s = .next t ∧ t.slotValid = false ∧ t.slotValue = 0x00000000 ∧ t.fault = 0b000 ∧
      t.mem = s.mem ∧ t.host = rest ∧ t.responses = s.responses ∧ t.reads = s.reads) ∧
  (∀ s t : State, step s = .next t →
    (s.slotValid = true ∧ t.slotValid = false) ∨ (s.fault ≠ 0 ∧ t.fault = 0) →
    s.host.head? = some .assertReset)

/-- R124: with nothing presented, a running CORE keeps all its state. That an idle step is a step is the model's
(notes/assumptions/11.md). -/
def Obligations.IdleKeepsTheState : Prop := ∀ s : State, s.running → s.host = [] → step s = .next s

/-- R30, R57: the host's change of a byte changes that byte of the buffer space alone, and no register. That the buffer
space keeps a canonical form is the model's, a DESIGN CHOICE (notes/assumptions/8.md); that the change lands on a halted
CORE too is the model's, DEDUCED (notes/assumptions/12.md). -/
def Obligations.HostChangesOneByte : Prop :=
  ∀ (s : State) (a : Addr) (v : Byte) (rest : List HostAction), s.mem.wf = true → s.host = .modify a v :: rest →
    ∃ t, step s = .next t ∧ t = { s with mem := t.mem, host := rest } ∧ t.mem.wf = true ∧
      t.mem.read a = v ∧ ∀ a', a' ≠ a → t.mem.read a' = s.mem.read a'

/-- R47, R58, R136: a step on a word that decodes is `exec` of the decoded command on the state with its fields latched
and the word taken off the port; afterwards the command ends, which frees the sequencer's registers where the CORE is
not halted (R16; notes/assumptions/6.md). -/
def Obligations.StepRunsTheDecodedCommand : Prop :=
  ∀ (s : State) (cmd : Command) (rest : List HostAction) (i : Instr),
    s.running → s.host = .present cmd :: rest → decode cmd = .ok i →
    step s = mapNext State.endCommand
      (exec i { s with host := rest, opc := i.opcode, len := i.len, base := i.base })

/-! ### The slot and whole runs -/

/-- R19: the slot's two states, step by step: only a `SAVE` with consensus fills it, only the reset input empties
it. -/
def Obligations.SlotStateMachine : Prop :=
  ∀ s t : State, step s = .next t →
    (∀ rest, s.host = .assertReset :: rest → t.slotValid = false ∧ t.slotValue = 0x00000000) ∧
    (∀ (base : Addr) (len : Len) (v : Word) (rest : List HostAction),
      s.host = .present (encode (.save base len)) :: rest → contractKept base len →
      agreedOn (bufferBytes s.mem base len.toNat) = some v → t.slotValid = true ∧ t.slotValue = v) ∧
    ((t.slotValid ≠ s.slotValid ∨ t.slotValue ≠ s.slotValue) →
      (∃ rest, s.host = .assertReset :: rest) ∨
      (∃ (base : Addr) (len : Len) (v : Word) (rest : List HostAction),
        s.host = .present (encode (.save base len)) :: rest ∧ contractKept base len ∧
        agreedOn (bufferBytes s.mem base len.toNat) = some v))

/-- R100: `SAVE` and then `VERIFY` of the same, unchanged buffer. -/
def Obligations.SaveThenVerify : Prop :=
  ∀ (s : State) (base : Addr) (len : Len) (rest : List HostAction), s.running → contractKept base len →
    s.host = .present (encode (.save base len)) :: .present (encode (.verify base len)) :: rest →
    ∃ t u, step s = .next t ∧ step t = .next u ∧
      (t.responses = s.responses ++ [0x00000000] → u.responses = t.responses ++ [0x00000000]) ∧
      (t.responses = s.responses ++ [0xFFFFFFFF] → s.slotValid = false →
        u.responses = t.responses ++ [0xFFFFFFFE]) ∧
      (t.responses = s.responses ++ [0xFFFFFFFF] → s.slotValid = true →
        u.responses = t.responses ++ [0xFFFFFFFF]) ∧
      (t.responses = s.responses ++ [0x00000000] ∨ t.responses = s.responses ++ [0xFFFFFFFF])

/-- R99, R101: after a `SAVE` that agreed on `v`, whatever the host then changes, a `VERIFY` of any buffer answers 0
where that buffer agrees on `v`, -3 where it agrees on another value, -1 where it agrees on none. -/
def Obligations.CorruptionDetection : Prop :=
  ∀ (s : State) (base base' : Addr) (len len' : Len) (changes : List (Addr × Byte)) (rest : List HostAction) (v : Word),
    s.running → contractKept base len → contractKept base' len' →
    agreedOn (bufferBytes s.mem base len.toNat) = some v →
    s.host = .present (encode (.save base len)) ::
      (changes.map (fun c => HostAction.modify c.1 c.2) ++ .present (encode (.verify base' len')) :: rest) →
    ∃ t, runSteps (changes.length + 2) s = .next t ∧ t.host = rest ∧
      t.responses = s.responses ++ ([0x00000000,
        match agreedOn (bufferBytes (modifyAll s.mem changes) base' len'.toNat) with
          | some w => if w = v then 0x00000000 else 0xFFFFFFFD
          | none => 0xFFFFFFFF] : List Word)

/-- R101: in a buffer that was zero but for its last byte, a non-zero byte put anywhere before the last parts checksum-1
from checksum-2, so that only the CRC could still agree. -/
def Obligations.EarlyMutationPartsSumAndHash : Prop :=
  ∀ (before between : Nat) (m last : Byte), before + between + 2 < 2 ^ 20 → m ≠ 0x00 →
    checksum1 (List.replicate before 0x00 ++ m :: (List.replicate between 0x00 ++ [last])) ≠
      checksum2 (List.replicate before 0x00 ++ m :: (List.replicate between 0x00 ++ [last]))

/-- R102: while nothing resets the CORE, an Empty slot answers -2 to every legal `VERIFY` and is filled exactly where an
answer 0 has been given; a Valid slot stays Valid and -2 is never answered again. -/
def Obligations.NoCheckpointGuard : Prop :=
  (∀ (s : State) (base : Addr) (len : Len) (rest : List HostAction), s.running → s.slotValid = false →
    contractKept base len → s.host = .present (encode (.verify base len)) :: rest →
    ∃ t, step s = .next t ∧ t.responses = s.responses ++ [0xFFFFFFFE] ∧ t.slotValid = false) ∧
  (∀ (n : Nat) (s t : State), s.noResetAhead → s.slotValid = false → runSteps n s = .next t →
    ∃ new, t.responses = s.responses ++ new ∧ (t.slotValid = true ↔ 0x00000000 ∈ new)) ∧
  (∀ (n : Nat) (s t : State), s.noResetAhead → s.slotValid = true → runSteps n s = .next t →
    t.slotValid = true ∧ ∃ new, t.responses = s.responses ++ new ∧ 0xFFFFFFFE ∉ new)

/-- R93, R103: every step is the reference machine's: three separate passes in closed form and by table, a count of
equal checksums, an optional checkpoint. -/
def Obligations.StepRefinesTheReference : Prop :=
  ∀ (s t : State) (a : HostAction) (rest : List HostAction), s.host = a :: rest → step s = .next t →
    t.toRef = refAction s.toRef a ∧ t.host = rest

/-- R20, R93, R136: a run over the host's actions, in their order, is the reference machine's run; so a Valid slot holds
what the most recent `SAVE` with consensus agreed on. -/
def Obligations.RunRefinesTheReference : Prop :=
  ∀ (s t : State), runSteps s.host.length s = .next t → t.toRef = s.host.foldl refAction s.toRef ∧ t.host = []

/-- R19, R25, R54: the invariant, kept by every step from every state that meets it. The canonical form of the buffer
space is the model's (notes/assumptions/8.md). -/
def Obligations.StepKeepsTheInvariant : Prop := ∀ s t : State, s.Inv → step s = .next t → t.Inv

/-- R25, R130: the state after reset meets the invariant. The canonical form of the buffer space is the model's, a DESIGN
CHOICE (notes/assumptions/8.md), and so is that the responses stand in `State` (notes/assumptions/1.md). -/
def Obligations.ResetMeetsTheInvariant : Prop := State.reset.Inv
end

