-- ==== Sys2Proof/Laws/Encoding.lean ====
section
/-! SUPPORT. The decoder and the encoder, field by field. -/

namespace Sys2Proof

/-- Every command is well formed: its operands have the width of their fields. -/
theorem instr_wellFormed (i : Instr) : i.wellFormed = true := by
  cases i with
  | save base len => exact Bool.and_eq_true_iff.2 ⟨decide_eq_true base.isLt, decide_eq_true len.isLt⟩
  | verify base len => exact Bool.and_eq_true_iff.2 ⟨decide_eq_true base.isLt, decide_eq_true len.isLt⟩

/-- A command is what its own request stands for. -/
theorem instr_of_request (i : Instr) : i.toRequest.toInstr = some i := by
  have h := instr_wellFormed i
  rw [Instr.wellFormed] at h
  cases i <;> simp only [Request.toInstr, h, if_true] <;> simp [Instr.toRequest]

/-- What the decoder answers on the three kinds of opcode. -/
theorem decodeFields_save (len : Len) (base : Addr) : decodeFields 0x01 len base = .ok (.save base len) := rfl

theorem decodeFields_verify (len : Len) (base : Addr) : decodeFields 0x02 len base = .ok (.verify base len) := rfl

theorem decodeFields_reserved (opc : Opcode) (len : Len) (base : Addr) (h1 : opc ≠ 0x01) (h2 : opc ≠ 0x02) :
    decodeFields opc len base = .error (.reservedOpcode opc) := by
  rw [decodeFields, if_neg (show opc ≠ opcSave from h1), if_neg (show opc ≠ opcVerify from h2)]

/-- A word that decodes has the command's opcode, length and reference in its fields. -/
theorem decode_ok_fields (w : Command) (i : Instr) (h : decode w = .ok i) :
    opcodeField w = i.opcode ∧ lenField w = i.len ∧ baseField w = i.base := by
  simp only [decode, decodeFields] at h
  split_ifs at h with h1 h2
  · cases h; exact ⟨h1, rfl, rfl⟩
  · cases h; exact ⟨h2, rfl, rfl⟩

end Sys2Proof
end

