-- ==== Sys2Proof/Laws/Memory.lean ====
section
/-! SUPPORT. The buffer space: a read after a write, and the canonical form that every write keeps. -/

namespace Sys2Proof.Machine

theorem Memory.get_put_same (m : Memory) (a : Nat) (v : Byte) (lo : Nat) (h : Memory.wfFrom lo m = true) :
    Memory.get (Memory.put m a v) a = v := by
  induction m generalizing lo with
  | nil => by_cases hv : v = unlistedByte <;> simp [Memory.put, Memory.get, hv]
  | cons c rest ih =>
    obtain ⟨k, b⟩ := c
    simp only [Memory.wfFrom, Bool.and_eq_true, decide_eq_true_eq] at h
    have absent : ∀ (rest : Memory) (lo : Nat), Memory.wfFrom lo rest = true → a < lo →
        Memory.get rest a = unlistedByte := by
      intro rest
      induction rest with
      | nil => intros; rfl
      | cons c rest ih =>
        intro lo h hlt
        simp only [Memory.wfFrom, Bool.and_eq_true, decide_eq_true_eq] at h
        have : c.1 ≠ a := by omega
        simp only [Memory.get, if_neg this]
        exact ih _ h.2 (by omega)
    simp only [Memory.put]
    split_ifs with h1 h2 h3 h4
    · have : k ≠ a := by omega
      simp only [Memory.get, if_neg this]
      exact ih _ h.2
    · rw [h3]; exact absent _ _ h.2 (by omega)
    · simp [Memory.get]
    · have : k ≠ a := h2
      simp only [Memory.get, if_neg this, h4]
      exact absent _ _ h.2 (by omega)
    · simp [Memory.get]

theorem Memory.get_put_other (m : Memory) (a a' : Nat) (v : Byte) (h : a' ≠ a) :
    Memory.get (Memory.put m a v) a' = Memory.get m a' := by
  induction m with
  | nil => by_cases hv : v = unlistedByte <;> simp [Memory.put, Memory.get, hv, h.symm]
  | cons c rest ih =>
    obtain ⟨k, b⟩ := c
    simp only [Memory.put]
    split_ifs with h1 h2 h3 h4
    · simp only [Memory.get, ih]
    · have : k ≠ a' := by omega
      simp only [Memory.get, if_neg this]
    · have : k ≠ a' := by omega
      simp only [Memory.get, if_neg h.symm, if_neg this]
    · rfl
    · simp only [Memory.get, if_neg h.symm]

theorem Memory.wfFrom_put (m : Memory) (a : Nat) (v : Byte) (lo : Nat) (h : Memory.wfFrom lo m = true) (hlo : lo ≤ a)
    (ha : a < 2 ^ 32) : Memory.wfFrom lo (Memory.put m a v) = true := by
  have weaken : ∀ (rest : Memory) (l l' : Nat), l ≤ l' → Memory.wfFrom l' rest = true → Memory.wfFrom l rest = true := by
    intro rest l l' hl hw
    cases rest with
    | nil => rfl
    | cons c rest =>
      simp only [Memory.wfFrom, Bool.and_eq_true, decide_eq_true_eq] at hw ⊢
      exact ⟨⟨⟨by omega, hw.1.1.2⟩, hw.1.2⟩, hw.2⟩
  induction m generalizing lo with
  | nil =>
    by_cases hv : v = unlistedByte
    · simp [Memory.put, Memory.wfFrom, hv]
    · simp [Memory.put, Memory.wfFrom, hv]; omega
  | cons c rest ih =>
    obtain ⟨k, b⟩ := c
    have h0 := h
    simp only [Memory.wfFrom, Bool.and_eq_true, decide_eq_true_eq] at h
    simp only [Memory.put]
    split_ifs with h1 h2 h3 h4
    · simp only [Memory.wfFrom, Bool.and_eq_true, decide_eq_true_eq]
      exact ⟨h.1, ih _ h.2 (by omega)⟩
    · exact weaken _ _ _ (by omega) h.2
    · simp only [Memory.wfFrom, Bool.and_eq_true, decide_eq_true_eq]
      exact ⟨⟨⟨hlo, ha⟩, h3⟩, by rw [← h2]; exact h.2⟩
    · exact h0
    · simp only [Memory.wfFrom, Bool.and_eq_true, decide_eq_true_eq]
      exact ⟨⟨⟨hlo, ha⟩, h4⟩, ⟨⟨⟨by omega, h.1.1.2⟩, h.1.2⟩, h.2⟩⟩

/-- A write keeps the canonical form. -/
theorem Memory.write_wf (m : Memory) (a : Addr) (v : Byte) (h : m.wf = true) : (m.write a v).wf = true :=
  Memory.wfFrom_put m a.toNat v 0 h (Nat.zero_le _) a.isLt

/-- A read after a write to the same address gives the byte written. -/
theorem Memory.read_write_same (m : Memory) (a : Addr) (v : Byte) (h : m.wf = true) : (m.write a v).read a = v :=
  Memory.get_put_same m a.toNat v 0 h

/-- A write leaves every other address alone. -/
theorem Memory.read_write_other (m : Memory) (a a' : Addr) (v : Byte) (h : a' ≠ a) : (m.write a v).read a' = m.read a' :=
  Memory.get_put_other m a.toNat a'.toNat v (fun e => h (BitVec.eq_of_toNat_eq e))

theorem Memory.read_nil (a : Addr) : Memory.read [] a = unlistedByte := rfl

theorem Memory.wf_nil : Memory.wf [] = true := rfl

end Sys2Proof.Machine
end

