-- ==== Sys2Proof/Laws/State.lean ====
section
/-! SUPPORT. What each update of the state leaves in each field: one lemma per field per update. -/

namespace Sys2Proof.Machine

/-! ### State.sumInit -/

@[simp] theorem State.sumInit_sum (s : State) : s.sumInit.sum = sumInitValue := rfl
@[simp] theorem State.sumInit_lh (s : State) : s.sumInit.lh = s.lh := rfl
@[simp] theorem State.sumInit_crc (s : State) : s.sumInit.crc = s.crc := rfl
@[simp] theorem State.sumInit_idx (s : State) : s.sumInit.idx = s.idx := rfl
@[simp] theorem State.sumInit_opc (s : State) : s.sumInit.opc = s.opc := rfl
@[simp] theorem State.sumInit_base (s : State) : s.sumInit.base = s.base := rfl
@[simp] theorem State.sumInit_len (s : State) : s.sumInit.len = s.len := rfl
@[simp] theorem State.sumInit_slotValue (s : State) : s.sumInit.slotValue = s.slotValue := rfl
@[simp] theorem State.sumInit_slotValid (s : State) : s.sumInit.slotValid = s.slotValid := rfl
@[simp] theorem State.sumInit_fault (s : State) : s.sumInit.fault = s.fault := rfl
@[simp] theorem State.sumInit_mem (s : State) : s.sumInit.mem = s.mem := rfl
@[simp] theorem State.sumInit_host (s : State) : s.sumInit.host = s.host := rfl
@[simp] theorem State.sumInit_responses (s : State) : s.sumInit.responses = s.responses := rfl
@[simp] theorem State.sumInit_reads (s : State) : s.sumInit.reads = s.reads := rfl
@[simp] theorem State.sumInit_draw (s : State) : s.sumInit.draw = s.draw := rfl

/-! ### State.sumStep -/

@[simp] theorem State.sumStep_sum (s : State) (b : Byte) : (s.sumStep b).sum = sumNext s.sum b := rfl
@[simp] theorem State.sumStep_lh (s : State) (b : Byte) : (s.sumStep b).lh = s.lh := rfl
@[simp] theorem State.sumStep_crc (s : State) (b : Byte) : (s.sumStep b).crc = s.crc := rfl
@[simp] theorem State.sumStep_idx (s : State) (b : Byte) : (s.sumStep b).idx = s.idx := rfl
@[simp] theorem State.sumStep_opc (s : State) (b : Byte) : (s.sumStep b).opc = s.opc := rfl
@[simp] theorem State.sumStep_base (s : State) (b : Byte) : (s.sumStep b).base = s.base := rfl
@[simp] theorem State.sumStep_len (s : State) (b : Byte) : (s.sumStep b).len = s.len := rfl
@[simp] theorem State.sumStep_slotValue (s : State) (b : Byte) : (s.sumStep b).slotValue = s.slotValue := rfl
@[simp] theorem State.sumStep_slotValid (s : State) (b : Byte) : (s.sumStep b).slotValid = s.slotValid := rfl
@[simp] theorem State.sumStep_fault (s : State) (b : Byte) : (s.sumStep b).fault = s.fault := rfl
@[simp] theorem State.sumStep_mem (s : State) (b : Byte) : (s.sumStep b).mem = s.mem := rfl
@[simp] theorem State.sumStep_host (s : State) (b : Byte) : (s.sumStep b).host = s.host := rfl
@[simp] theorem State.sumStep_responses (s : State) (b : Byte) : (s.sumStep b).responses = s.responses := rfl
@[simp] theorem State.sumStep_reads (s : State) (b : Byte) : (s.sumStep b).reads = s.reads := rfl
@[simp] theorem State.sumStep_draw (s : State) (b : Byte) : (s.sumStep b).draw = s.draw := rfl

/-! ### State.lhInit -/

@[simp] theorem State.lhInit_sum (s : State) : s.lhInit.sum = s.sum := rfl
@[simp] theorem State.lhInit_lh (s : State) : s.lhInit.lh = lhInitValue := rfl
@[simp] theorem State.lhInit_crc (s : State) : s.lhInit.crc = s.crc := rfl
@[simp] theorem State.lhInit_idx (s : State) : s.lhInit.idx = s.idx := rfl
@[simp] theorem State.lhInit_opc (s : State) : s.lhInit.opc = s.opc := rfl
@[simp] theorem State.lhInit_base (s : State) : s.lhInit.base = s.base := rfl
@[simp] theorem State.lhInit_len (s : State) : s.lhInit.len = s.len := rfl
@[simp] theorem State.lhInit_slotValue (s : State) : s.lhInit.slotValue = s.slotValue := rfl
@[simp] theorem State.lhInit_slotValid (s : State) : s.lhInit.slotValid = s.slotValid := rfl
@[simp] theorem State.lhInit_fault (s : State) : s.lhInit.fault = s.fault := rfl
@[simp] theorem State.lhInit_mem (s : State) : s.lhInit.mem = s.mem := rfl
@[simp] theorem State.lhInit_host (s : State) : s.lhInit.host = s.host := rfl
@[simp] theorem State.lhInit_responses (s : State) : s.lhInit.responses = s.responses := rfl
@[simp] theorem State.lhInit_reads (s : State) : s.lhInit.reads = s.reads := rfl
@[simp] theorem State.lhInit_draw (s : State) : s.lhInit.draw = s.draw := rfl

/-! ### State.lhStep -/

@[simp] theorem State.lhStep_sum (s : State) (b : Byte) : (s.lhStep b).sum = s.sum := rfl
@[simp] theorem State.lhStep_lh (s : State) (b : Byte) : (s.lhStep b).lh = lhNext s.lh b := rfl
@[simp] theorem State.lhStep_crc (s : State) (b : Byte) : (s.lhStep b).crc = s.crc := rfl
@[simp] theorem State.lhStep_idx (s : State) (b : Byte) : (s.lhStep b).idx = s.idx := rfl
@[simp] theorem State.lhStep_opc (s : State) (b : Byte) : (s.lhStep b).opc = s.opc := rfl
@[simp] theorem State.lhStep_base (s : State) (b : Byte) : (s.lhStep b).base = s.base := rfl
@[simp] theorem State.lhStep_len (s : State) (b : Byte) : (s.lhStep b).len = s.len := rfl
@[simp] theorem State.lhStep_slotValue (s : State) (b : Byte) : (s.lhStep b).slotValue = s.slotValue := rfl
@[simp] theorem State.lhStep_slotValid (s : State) (b : Byte) : (s.lhStep b).slotValid = s.slotValid := rfl
@[simp] theorem State.lhStep_fault (s : State) (b : Byte) : (s.lhStep b).fault = s.fault := rfl
@[simp] theorem State.lhStep_mem (s : State) (b : Byte) : (s.lhStep b).mem = s.mem := rfl
@[simp] theorem State.lhStep_host (s : State) (b : Byte) : (s.lhStep b).host = s.host := rfl
@[simp] theorem State.lhStep_responses (s : State) (b : Byte) : (s.lhStep b).responses = s.responses := rfl
@[simp] theorem State.lhStep_reads (s : State) (b : Byte) : (s.lhStep b).reads = s.reads := rfl
@[simp] theorem State.lhStep_draw (s : State) (b : Byte) : (s.lhStep b).draw = s.draw := rfl

/-! ### State.crcInit -/

@[simp] theorem State.crcInit_sum (s : State) : s.crcInit.sum = s.sum := rfl
@[simp] theorem State.crcInit_lh (s : State) : s.crcInit.lh = s.lh := rfl
@[simp] theorem State.crcInit_crc (s : State) : s.crcInit.crc = crcInitValue := rfl
@[simp] theorem State.crcInit_idx (s : State) : s.crcInit.idx = s.idx := rfl
@[simp] theorem State.crcInit_opc (s : State) : s.crcInit.opc = s.opc := rfl
@[simp] theorem State.crcInit_base (s : State) : s.crcInit.base = s.base := rfl
@[simp] theorem State.crcInit_len (s : State) : s.crcInit.len = s.len := rfl
@[simp] theorem State.crcInit_slotValue (s : State) : s.crcInit.slotValue = s.slotValue := rfl
@[simp] theorem State.crcInit_slotValid (s : State) : s.crcInit.slotValid = s.slotValid := rfl
@[simp] theorem State.crcInit_fault (s : State) : s.crcInit.fault = s.fault := rfl
@[simp] theorem State.crcInit_mem (s : State) : s.crcInit.mem = s.mem := rfl
@[simp] theorem State.crcInit_host (s : State) : s.crcInit.host = s.host := rfl
@[simp] theorem State.crcInit_responses (s : State) : s.crcInit.responses = s.responses := rfl
@[simp] theorem State.crcInit_reads (s : State) : s.crcInit.reads = s.reads := rfl
@[simp] theorem State.crcInit_draw (s : State) : s.crcInit.draw = s.draw := rfl

/-! ### State.crcBit -/

@[simp] theorem State.crcBit_sum (s : State) : s.crcBit.sum = s.sum := rfl
@[simp] theorem State.crcBit_lh (s : State) : s.crcBit.lh = s.lh := rfl
@[simp] theorem State.crcBit_crc (s : State) : s.crcBit.crc = crcBitNext s.crc := rfl
@[simp] theorem State.crcBit_idx (s : State) : s.crcBit.idx = s.idx := rfl
@[simp] theorem State.crcBit_opc (s : State) : s.crcBit.opc = s.opc := rfl
@[simp] theorem State.crcBit_base (s : State) : s.crcBit.base = s.base := rfl
@[simp] theorem State.crcBit_len (s : State) : s.crcBit.len = s.len := rfl
@[simp] theorem State.crcBit_slotValue (s : State) : s.crcBit.slotValue = s.slotValue := rfl
@[simp] theorem State.crcBit_slotValid (s : State) : s.crcBit.slotValid = s.slotValid := rfl
@[simp] theorem State.crcBit_fault (s : State) : s.crcBit.fault = s.fault := rfl
@[simp] theorem State.crcBit_mem (s : State) : s.crcBit.mem = s.mem := rfl
@[simp] theorem State.crcBit_host (s : State) : s.crcBit.host = s.host := rfl
@[simp] theorem State.crcBit_responses (s : State) : s.crcBit.responses = s.responses := rfl
@[simp] theorem State.crcBit_reads (s : State) : s.crcBit.reads = s.reads := rfl
@[simp] theorem State.crcBit_draw (s : State) : s.crcBit.draw = s.draw := rfl

/-! ### State.crcStep -/

@[simp] theorem State.crcStep_sum (s : State) (b : Byte) : (s.crcStep b).sum = s.sum := rfl
@[simp] theorem State.crcStep_lh (s : State) (b : Byte) : (s.crcStep b).lh = s.lh := rfl
@[simp] theorem State.crcStep_crc (s : State) (b : Byte) : (s.crcStep b).crc = crcNext s.crc b := rfl
@[simp] theorem State.crcStep_idx (s : State) (b : Byte) : (s.crcStep b).idx = s.idx := rfl
@[simp] theorem State.crcStep_opc (s : State) (b : Byte) : (s.crcStep b).opc = s.opc := rfl
@[simp] theorem State.crcStep_base (s : State) (b : Byte) : (s.crcStep b).base = s.base := rfl
@[simp] theorem State.crcStep_len (s : State) (b : Byte) : (s.crcStep b).len = s.len := rfl
@[simp] theorem State.crcStep_slotValue (s : State) (b : Byte) : (s.crcStep b).slotValue = s.slotValue := rfl
@[simp] theorem State.crcStep_slotValid (s : State) (b : Byte) : (s.crcStep b).slotValid = s.slotValid := rfl
@[simp] theorem State.crcStep_fault (s : State) (b : Byte) : (s.crcStep b).fault = s.fault := rfl
@[simp] theorem State.crcStep_mem (s : State) (b : Byte) : (s.crcStep b).mem = s.mem := rfl
@[simp] theorem State.crcStep_host (s : State) (b : Byte) : (s.crcStep b).host = s.host := rfl
@[simp] theorem State.crcStep_responses (s : State) (b : Byte) : (s.crcStep b).responses = s.responses := rfl
@[simp] theorem State.crcStep_reads (s : State) (b : Byte) : (s.crcStep b).reads = s.reads := rfl
@[simp] theorem State.crcStep_draw (s : State) (b : Byte) : (s.crcStep b).draw = s.draw := rfl

/-! ### State.coreInit -/

@[simp] theorem State.coreInit_sum (s : State) : s.coreInit.sum = sumInitValue := rfl
@[simp] theorem State.coreInit_lh (s : State) : s.coreInit.lh = lhInitValue := rfl
@[simp] theorem State.coreInit_crc (s : State) : s.coreInit.crc = crcInitValue := rfl
@[simp] theorem State.coreInit_idx (s : State) : s.coreInit.idx = s.idx := rfl
@[simp] theorem State.coreInit_opc (s : State) : s.coreInit.opc = s.opc := rfl
@[simp] theorem State.coreInit_base (s : State) : s.coreInit.base = s.base := rfl
@[simp] theorem State.coreInit_len (s : State) : s.coreInit.len = s.len := rfl
@[simp] theorem State.coreInit_slotValue (s : State) : s.coreInit.slotValue = s.slotValue := rfl
@[simp] theorem State.coreInit_slotValid (s : State) : s.coreInit.slotValid = s.slotValid := rfl
@[simp] theorem State.coreInit_fault (s : State) : s.coreInit.fault = s.fault := rfl
@[simp] theorem State.coreInit_mem (s : State) : s.coreInit.mem = s.mem := rfl
@[simp] theorem State.coreInit_host (s : State) : s.coreInit.host = s.host := rfl
@[simp] theorem State.coreInit_responses (s : State) : s.coreInit.responses = s.responses := rfl
@[simp] theorem State.coreInit_reads (s : State) : s.coreInit.reads = s.reads := rfl
@[simp] theorem State.coreInit_draw (s : State) : s.coreInit.draw = s.draw := rfl

/-! ### State.coreAbsorb -/

@[simp] theorem State.coreAbsorb_sum (s : State) (b : Byte) : (s.coreAbsorb b).sum = sumNext s.sum b := rfl
@[simp] theorem State.coreAbsorb_lh (s : State) (b : Byte) : (s.coreAbsorb b).lh = lhNext s.lh b := rfl
@[simp] theorem State.coreAbsorb_crc (s : State) (b : Byte) : (s.coreAbsorb b).crc = crcNext s.crc b := rfl
@[simp] theorem State.coreAbsorb_idx (s : State) (b : Byte) : (s.coreAbsorb b).idx = s.idx := rfl
@[simp] theorem State.coreAbsorb_opc (s : State) (b : Byte) : (s.coreAbsorb b).opc = s.opc := rfl
@[simp] theorem State.coreAbsorb_base (s : State) (b : Byte) : (s.coreAbsorb b).base = s.base := rfl
@[simp] theorem State.coreAbsorb_len (s : State) (b : Byte) : (s.coreAbsorb b).len = s.len := rfl
@[simp] theorem State.coreAbsorb_slotValue (s : State) (b : Byte) : (s.coreAbsorb b).slotValue = s.slotValue := rfl
@[simp] theorem State.coreAbsorb_slotValid (s : State) (b : Byte) : (s.coreAbsorb b).slotValid = s.slotValid := rfl
@[simp] theorem State.coreAbsorb_fault (s : State) (b : Byte) : (s.coreAbsorb b).fault = s.fault := rfl
@[simp] theorem State.coreAbsorb_mem (s : State) (b : Byte) : (s.coreAbsorb b).mem = s.mem := rfl
@[simp] theorem State.coreAbsorb_host (s : State) (b : Byte) : (s.coreAbsorb b).host = s.host := rfl
@[simp] theorem State.coreAbsorb_responses (s : State) (b : Byte) : (s.coreAbsorb b).responses = s.responses := rfl
@[simp] theorem State.coreAbsorb_reads (s : State) (b : Byte) : (s.coreAbsorb b).reads = s.reads := rfl
@[simp] theorem State.coreAbsorb_draw (s : State) (b : Byte) : (s.coreAbsorb b).draw = s.draw := rfl

/-! ### State.takeAction -/

@[simp] theorem State.takeAction_sum (s : State) : s.takeAction.sum = s.sum := rfl
@[simp] theorem State.takeAction_lh (s : State) : s.takeAction.lh = s.lh := rfl
@[simp] theorem State.takeAction_crc (s : State) : s.takeAction.crc = s.crc := rfl
@[simp] theorem State.takeAction_idx (s : State) : s.takeAction.idx = s.idx := rfl
@[simp] theorem State.takeAction_opc (s : State) : s.takeAction.opc = s.opc := rfl
@[simp] theorem State.takeAction_base (s : State) : s.takeAction.base = s.base := rfl
@[simp] theorem State.takeAction_len (s : State) : s.takeAction.len = s.len := rfl
@[simp] theorem State.takeAction_slotValue (s : State) : s.takeAction.slotValue = s.slotValue := rfl
@[simp] theorem State.takeAction_slotValid (s : State) : s.takeAction.slotValid = s.slotValid := rfl
@[simp] theorem State.takeAction_fault (s : State) : s.takeAction.fault = s.fault := rfl
@[simp] theorem State.takeAction_mem (s : State) : s.takeAction.mem = s.mem := rfl
@[simp] theorem State.takeAction_host (s : State) : s.takeAction.host = s.host.tail := rfl
@[simp] theorem State.takeAction_responses (s : State) : s.takeAction.responses = s.responses := rfl
@[simp] theorem State.takeAction_reads (s : State) : s.takeAction.reads = s.reads := rfl
@[simp] theorem State.takeAction_draw (s : State) : s.takeAction.draw = s.draw := rfl

/-! ### State.presentFirst -/

@[simp] theorem State.presentFirst_sum (s : State) (cmd : Command) : (s.presentFirst cmd).sum = s.sum := rfl
@[simp] theorem State.presentFirst_lh (s : State) (cmd : Command) : (s.presentFirst cmd).lh = s.lh := rfl
@[simp] theorem State.presentFirst_crc (s : State) (cmd : Command) : (s.presentFirst cmd).crc = s.crc := rfl
@[simp] theorem State.presentFirst_idx (s : State) (cmd : Command) : (s.presentFirst cmd).idx = s.idx := rfl
@[simp] theorem State.presentFirst_opc (s : State) (cmd : Command) : (s.presentFirst cmd).opc = s.opc := rfl
@[simp] theorem State.presentFirst_base (s : State) (cmd : Command) : (s.presentFirst cmd).base = s.base := rfl
@[simp] theorem State.presentFirst_len (s : State) (cmd : Command) : (s.presentFirst cmd).len = s.len := rfl
@[simp] theorem State.presentFirst_slotValue (s : State) (cmd : Command) : (s.presentFirst cmd).slotValue = s.slotValue := rfl
@[simp] theorem State.presentFirst_slotValid (s : State) (cmd : Command) : (s.presentFirst cmd).slotValid = s.slotValid := rfl
@[simp] theorem State.presentFirst_fault (s : State) (cmd : Command) : (s.presentFirst cmd).fault = s.fault := rfl
@[simp] theorem State.presentFirst_mem (s : State) (cmd : Command) : (s.presentFirst cmd).mem = s.mem := rfl
@[simp] theorem State.presentFirst_host (s : State) (cmd : Command) : (s.presentFirst cmd).host = .present cmd :: s.host := rfl
@[simp] theorem State.presentFirst_responses (s : State) (cmd : Command) : (s.presentFirst cmd).responses = s.responses := rfl
@[simp] theorem State.presentFirst_reads (s : State) (cmd : Command) : (s.presentFirst cmd).reads = s.reads := rfl
@[simp] theorem State.presentFirst_draw (s : State) (cmd : Command) : (s.presentFirst cmd).draw = s.draw := rfl

/-! ### State.accept -/

@[simp] theorem State.accept_sum (s : State) (cmd : Command) : (s.accept cmd).sum = s.sum := rfl
@[simp] theorem State.accept_lh (s : State) (cmd : Command) : (s.accept cmd).lh = s.lh := rfl
@[simp] theorem State.accept_crc (s : State) (cmd : Command) : (s.accept cmd).crc = s.crc := rfl
@[simp] theorem State.accept_idx (s : State) (cmd : Command) : (s.accept cmd).idx = s.idx := rfl
@[simp] theorem State.accept_opc (s : State) (cmd : Command) : (s.accept cmd).opc = opcodeField cmd := rfl
@[simp] theorem State.accept_base (s : State) (cmd : Command) : (s.accept cmd).base = baseField cmd := rfl
@[simp] theorem State.accept_len (s : State) (cmd : Command) : (s.accept cmd).len = lenField cmd := rfl
@[simp] theorem State.accept_slotValue (s : State) (cmd : Command) : (s.accept cmd).slotValue = s.slotValue := rfl
@[simp] theorem State.accept_slotValid (s : State) (cmd : Command) : (s.accept cmd).slotValid = s.slotValid := rfl
@[simp] theorem State.accept_fault (s : State) (cmd : Command) : (s.accept cmd).fault = s.fault := rfl
@[simp] theorem State.accept_mem (s : State) (cmd : Command) : (s.accept cmd).mem = s.mem := rfl
@[simp] theorem State.accept_host (s : State) (cmd : Command) : (s.accept cmd).host = s.host := rfl
@[simp] theorem State.accept_responses (s : State) (cmd : Command) : (s.accept cmd).responses = s.responses := rfl
@[simp] theorem State.accept_reads (s : State) (cmd : Command) : (s.accept cmd).reads = s.reads := rfl
@[simp] theorem State.accept_draw (s : State) (cmd : Command) : (s.accept cmd).draw = s.draw := rfl

/-! ### State.modify -/

@[simp] theorem State.modify_sum (s : State) (a : Addr) (v : Byte) : (s.modify a v).sum = s.sum := rfl
@[simp] theorem State.modify_lh (s : State) (a : Addr) (v : Byte) : (s.modify a v).lh = s.lh := rfl
@[simp] theorem State.modify_crc (s : State) (a : Addr) (v : Byte) : (s.modify a v).crc = s.crc := rfl
@[simp] theorem State.modify_idx (s : State) (a : Addr) (v : Byte) : (s.modify a v).idx = s.idx := rfl
@[simp] theorem State.modify_opc (s : State) (a : Addr) (v : Byte) : (s.modify a v).opc = s.opc := rfl
@[simp] theorem State.modify_base (s : State) (a : Addr) (v : Byte) : (s.modify a v).base = s.base := rfl
@[simp] theorem State.modify_len (s : State) (a : Addr) (v : Byte) : (s.modify a v).len = s.len := rfl
@[simp] theorem State.modify_slotValue (s : State) (a : Addr) (v : Byte) : (s.modify a v).slotValue = s.slotValue := rfl
@[simp] theorem State.modify_slotValid (s : State) (a : Addr) (v : Byte) : (s.modify a v).slotValid = s.slotValid := rfl
@[simp] theorem State.modify_fault (s : State) (a : Addr) (v : Byte) : (s.modify a v).fault = s.fault := rfl
@[simp] theorem State.modify_mem (s : State) (a : Addr) (v : Byte) : (s.modify a v).mem = s.mem.write a v := rfl
@[simp] theorem State.modify_host (s : State) (a : Addr) (v : Byte) : (s.modify a v).host = s.host := rfl
@[simp] theorem State.modify_responses (s : State) (a : Addr) (v : Byte) : (s.modify a v).responses = s.responses := rfl
@[simp] theorem State.modify_reads (s : State) (a : Addr) (v : Byte) : (s.modify a v).reads = s.reads := rfl
@[simp] theorem State.modify_draw (s : State) (a : Addr) (v : Byte) : (s.modify a v).draw = s.draw := rfl

/-! ### State.respond -/

@[simp] theorem State.respond_sum (s : State) (c : ResultCode) : (s.respond c).sum = s.sum := rfl
@[simp] theorem State.respond_lh (s : State) (c : ResultCode) : (s.respond c).lh = s.lh := rfl
@[simp] theorem State.respond_crc (s : State) (c : ResultCode) : (s.respond c).crc = s.crc := rfl
@[simp] theorem State.respond_idx (s : State) (c : ResultCode) : (s.respond c).idx = s.idx := rfl
@[simp] theorem State.respond_opc (s : State) (c : ResultCode) : (s.respond c).opc = s.opc := rfl
@[simp] theorem State.respond_base (s : State) (c : ResultCode) : (s.respond c).base = s.base := rfl
@[simp] theorem State.respond_len (s : State) (c : ResultCode) : (s.respond c).len = s.len := rfl
@[simp] theorem State.respond_slotValue (s : State) (c : ResultCode) : (s.respond c).slotValue = s.slotValue := rfl
@[simp] theorem State.respond_slotValid (s : State) (c : ResultCode) : (s.respond c).slotValid = s.slotValid := rfl
@[simp] theorem State.respond_fault (s : State) (c : ResultCode) : (s.respond c).fault = s.fault := rfl
@[simp] theorem State.respond_mem (s : State) (c : ResultCode) : (s.respond c).mem = s.mem := rfl
@[simp] theorem State.respond_host (s : State) (c : ResultCode) : (s.respond c).host = s.host := rfl
@[simp] theorem State.respond_responses (s : State) (c : ResultCode) : (s.respond c).responses = s.responses ++ [c.word] := rfl
@[simp] theorem State.respond_reads (s : State) (c : ResultCode) : (s.respond c).reads = s.reads := rfl
@[simp] theorem State.respond_draw (s : State) (c : ResultCode) : (s.respond c).draw = s.draw := rfl

/-! ### State.raise -/

@[simp] theorem State.raise_sum (s : State) (cs : List Cause) : (s.raise cs).sum = s.sum := rfl
@[simp] theorem State.raise_lh (s : State) (cs : List Cause) : (s.raise cs).lh = s.lh := rfl
@[simp] theorem State.raise_crc (s : State) (cs : List Cause) : (s.raise cs).crc = s.crc := rfl
@[simp] theorem State.raise_idx (s : State) (cs : List Cause) : (s.raise cs).idx = s.idx := rfl
@[simp] theorem State.raise_opc (s : State) (cs : List Cause) : (s.raise cs).opc = s.opc := rfl
@[simp] theorem State.raise_base (s : State) (cs : List Cause) : (s.raise cs).base = s.base := rfl
@[simp] theorem State.raise_len (s : State) (cs : List Cause) : (s.raise cs).len = s.len := rfl
@[simp] theorem State.raise_slotValue (s : State) (cs : List Cause) : (s.raise cs).slotValue = s.slotValue := rfl
@[simp] theorem State.raise_slotValid (s : State) (cs : List Cause) : (s.raise cs).slotValid = s.slotValid := rfl
@[simp] theorem State.raise_fault (s : State) (cs : List Cause) : (s.raise cs).fault = s.fault ||| causeMask cs := rfl
@[simp] theorem State.raise_mem (s : State) (cs : List Cause) : (s.raise cs).mem = s.mem := rfl
@[simp] theorem State.raise_host (s : State) (cs : List Cause) : (s.raise cs).host = s.host := rfl
@[simp] theorem State.raise_responses (s : State) (cs : List Cause) : (s.raise cs).responses = s.responses := rfl
@[simp] theorem State.raise_reads (s : State) (cs : List Cause) : (s.raise cs).reads = s.reads := rfl
@[simp] theorem State.raise_draw (s : State) (cs : List Cause) : (s.raise cs).draw = s.draw := rfl

/-! ### State.applyReset -/

@[simp] theorem State.applyReset_sum (s : State) : s.applyReset.sum = unitAtReset := rfl
@[simp] theorem State.applyReset_lh (s : State) : s.applyReset.lh = unitAtReset := rfl
@[simp] theorem State.applyReset_crc (s : State) : s.applyReset.crc = unitAtReset := rfl
@[simp] theorem State.applyReset_idx (s : State) : s.applyReset.idx = countAtReset := rfl
@[simp] theorem State.applyReset_opc (s : State) : s.applyReset.opc = opcAtReset := rfl
@[simp] theorem State.applyReset_base (s : State) : s.applyReset.base = baseAtReset := rfl
@[simp] theorem State.applyReset_len (s : State) : s.applyReset.len = countAtReset := rfl
@[simp] theorem State.applyReset_slotValue (s : State) : s.applyReset.slotValue = 0x00000000 := rfl
@[simp] theorem State.applyReset_slotValid (s : State) : s.applyReset.slotValid = false := rfl
@[simp] theorem State.applyReset_fault (s : State) : s.applyReset.fault = 0b000 := rfl
@[simp] theorem State.applyReset_mem (s : State) : s.applyReset.mem = s.mem := rfl
@[simp] theorem State.applyReset_host (s : State) : s.applyReset.host = s.host := rfl
@[simp] theorem State.applyReset_responses (s : State) : s.applyReset.responses = s.responses := rfl
@[simp] theorem State.applyReset_reads (s : State) : s.applyReset.reads = s.reads := rfl
@[simp] theorem State.applyReset_draw (s : State) : s.applyReset.draw = s.draw := rfl

/-! ### State.incIdx -/

@[simp] theorem State.incIdx_sum (s : State) : s.incIdx.sum = s.sum := rfl
@[simp] theorem State.incIdx_lh (s : State) : s.incIdx.lh = s.lh := rfl
@[simp] theorem State.incIdx_crc (s : State) : s.incIdx.crc = s.crc := rfl
@[simp] theorem State.incIdx_idx (s : State) : s.incIdx.idx = s.idx + 1 := rfl
@[simp] theorem State.incIdx_opc (s : State) : s.incIdx.opc = s.opc := rfl
@[simp] theorem State.incIdx_base (s : State) : s.incIdx.base = s.base := rfl
@[simp] theorem State.incIdx_len (s : State) : s.incIdx.len = s.len := rfl
@[simp] theorem State.incIdx_slotValue (s : State) : s.incIdx.slotValue = s.slotValue := rfl
@[simp] theorem State.incIdx_slotValid (s : State) : s.incIdx.slotValid = s.slotValid := rfl
@[simp] theorem State.incIdx_fault (s : State) : s.incIdx.fault = s.fault := rfl
@[simp] theorem State.incIdx_mem (s : State) : s.incIdx.mem = s.mem := rfl
@[simp] theorem State.incIdx_host (s : State) : s.incIdx.host = s.host := rfl
@[simp] theorem State.incIdx_responses (s : State) : s.incIdx.responses = s.responses := rfl
@[simp] theorem State.incIdx_reads (s : State) : s.incIdx.reads = s.reads := rfl
@[simp] theorem State.incIdx_draw (s : State) : s.incIdx.draw = s.draw := rfl

/-! ### State.startConsensus -/

@[simp] theorem State.startConsensus_sum (s : State) : s.startConsensus.sum = sumInitValue := rfl
@[simp] theorem State.startConsensus_lh (s : State) : s.startConsensus.lh = lhInitValue := rfl
@[simp] theorem State.startConsensus_crc (s : State) : s.startConsensus.crc = crcInitValue := rfl
@[simp] theorem State.startConsensus_idx (s : State) : s.startConsensus.idx = 0 := rfl
@[simp] theorem State.startConsensus_opc (s : State) : s.startConsensus.opc = s.opc := rfl
@[simp] theorem State.startConsensus_base (s : State) : s.startConsensus.base = s.base := rfl
@[simp] theorem State.startConsensus_len (s : State) : s.startConsensus.len = s.len := rfl
@[simp] theorem State.startConsensus_slotValue (s : State) : s.startConsensus.slotValue = s.slotValue := rfl
@[simp] theorem State.startConsensus_slotValid (s : State) : s.startConsensus.slotValid = s.slotValid := rfl
@[simp] theorem State.startConsensus_fault (s : State) : s.startConsensus.fault = s.fault := rfl
@[simp] theorem State.startConsensus_mem (s : State) : s.startConsensus.mem = s.mem := rfl
@[simp] theorem State.startConsensus_host (s : State) : s.startConsensus.host = s.host := rfl
@[simp] theorem State.startConsensus_responses (s : State) : s.startConsensus.responses = s.responses := rfl
@[simp] theorem State.startConsensus_reads (s : State) : s.startConsensus.reads = s.reads := rfl
@[simp] theorem State.startConsensus_draw (s : State) : s.startConsensus.draw = s.draw := rfl

/-! ### State.storeSlot -/

@[simp] theorem State.storeSlot_sum (s : State) (v : Word) : (s.storeSlot v).sum = s.sum := rfl
@[simp] theorem State.storeSlot_lh (s : State) (v : Word) : (s.storeSlot v).lh = s.lh := rfl
@[simp] theorem State.storeSlot_crc (s : State) (v : Word) : (s.storeSlot v).crc = s.crc := rfl
@[simp] theorem State.storeSlot_idx (s : State) (v : Word) : (s.storeSlot v).idx = s.idx := rfl
@[simp] theorem State.storeSlot_opc (s : State) (v : Word) : (s.storeSlot v).opc = s.opc := rfl
@[simp] theorem State.storeSlot_base (s : State) (v : Word) : (s.storeSlot v).base = s.base := rfl
@[simp] theorem State.storeSlot_len (s : State) (v : Word) : (s.storeSlot v).len = s.len := rfl
@[simp] theorem State.storeSlot_slotValue (s : State) (v : Word) : (s.storeSlot v).slotValue = v := rfl
@[simp] theorem State.storeSlot_slotValid (s : State) (v : Word) : (s.storeSlot v).slotValid = true := rfl
@[simp] theorem State.storeSlot_fault (s : State) (v : Word) : (s.storeSlot v).fault = s.fault := rfl
@[simp] theorem State.storeSlot_mem (s : State) (v : Word) : (s.storeSlot v).mem = s.mem := rfl
@[simp] theorem State.storeSlot_host (s : State) (v : Word) : (s.storeSlot v).host = s.host := rfl
@[simp] theorem State.storeSlot_responses (s : State) (v : Word) : (s.storeSlot v).responses = s.responses := rfl
@[simp] theorem State.storeSlot_reads (s : State) (v : Word) : (s.storeSlot v).reads = s.reads := rfl
@[simp] theorem State.storeSlot_draw (s : State) (v : Word) : (s.storeSlot v).draw = s.draw := rfl

/-! ### State.memRead: the byte, and the state after the read -/

@[simp] theorem State.memRead_byte (s : State) (a : Addr) : (s.memRead a).1 = s.mem.read a := rfl
@[simp] theorem State.memRead_sum (s : State) (a : Addr) : (s.memRead a).2.sum = s.sum := rfl
@[simp] theorem State.memRead_lh (s : State) (a : Addr) : (s.memRead a).2.lh = s.lh := rfl
@[simp] theorem State.memRead_crc (s : State) (a : Addr) : (s.memRead a).2.crc = s.crc := rfl
@[simp] theorem State.memRead_idx (s : State) (a : Addr) : (s.memRead a).2.idx = s.idx := rfl
@[simp] theorem State.memRead_opc (s : State) (a : Addr) : (s.memRead a).2.opc = s.opc := rfl
@[simp] theorem State.memRead_base (s : State) (a : Addr) : (s.memRead a).2.base = s.base := rfl
@[simp] theorem State.memRead_len (s : State) (a : Addr) : (s.memRead a).2.len = s.len := rfl
@[simp] theorem State.memRead_slotValue (s : State) (a : Addr) : (s.memRead a).2.slotValue = s.slotValue := rfl
@[simp] theorem State.memRead_slotValid (s : State) (a : Addr) : (s.memRead a).2.slotValid = s.slotValid := rfl
@[simp] theorem State.memRead_fault (s : State) (a : Addr) : (s.memRead a).2.fault = s.fault := rfl
@[simp] theorem State.memRead_mem (s : State) (a : Addr) : (s.memRead a).2.mem = s.mem := rfl
@[simp] theorem State.memRead_host (s : State) (a : Addr) : (s.memRead a).2.host = s.host := rfl
@[simp] theorem State.memRead_responses (s : State) (a : Addr) : (s.memRead a).2.responses = s.responses := rfl
@[simp] theorem State.memRead_reads (s : State) (a : Addr) : (s.memRead a).2.reads = a :: s.reads := rfl
@[simp] theorem State.memRead_draw (s : State) (a : Addr) : (s.memRead a).2.draw = s.draw := rfl

end Sys2Proof.Machine
end

