-- ==== Sys2Proof/Laws/Ops.lean ====
section
/-! SUPPORT. What each shared operation does, said once; later proofs cite these and unfold nothing. -/

namespace Sys2Proof.Machine

/-! ### Halting -/

theorem State.halted_iff (s : State) : s.halted = true ↔ s.fault ≠ 0 := by simp [State.halted]

theorem State.not_halted_iff (s : State) : s.halted = false ↔ s.fault = 0 := by simp [State.halted]

/-! ### The byte loop -/

/-- What the loop of R91 does in `n` turns, where `IDX` does not wrap: the units take the bytes at `IDX`, `IDX + 1`, …
in this order, each read once. -/
theorem State.absorb_eq (base : Addr) (n : Nat) (s : State) (h : s.idx.toNat + n < 2 ^ 24) :
    State.absorb base n s =
      { s with
        sum := (((List.range' s.idx.toNat n).map (byteAddr base)).map s.mem.read).foldl sumNext s.sum
        lh := (((List.range' s.idx.toNat n).map (byteAddr base)).map s.mem.read).foldl lhNext s.lh
        crc := (((List.range' s.idx.toNat n).map (byteAddr base)).map s.mem.read).foldl crcNext s.crc
        idx := s.idx + BitVec.ofNat 24 n
        reads := ((List.range' s.idx.toNat n).map (byteAddr base)).reverse ++ s.reads } := by
  induction n generalizing s with
  | zero => simp [State.absorb]
  | succ n ih =>
    have hi : (s.absorbNext base).idx.toNat = s.idx.toNat + 1 := by
      simp [State.absorbNext, BitVec.toNat_add]; omega
    rw [State.absorb, ih _ (by omega), hi, List.range'_succ]
    have hn : s.idx + 1 + BitVec.ofNat 24 n = s.idx + BitVec.ofNat 24 (n + 1) := by
      rw [BitVec.add_assoc]; congr 1; apply BitVec.eq_of_toNat_eq; simp [BitVec.toNat_add]; omega
    rw [← hn]
    simp [State.absorbNext, State.memRead, State.coreAbsorb, State.sumStep, State.lhStep, State.crcStep, State.incIdx]

/-- What steps 1 and 2 of the consensus sequence do (R90, R91, R93): the units hold what the buffer's bytes leave in
them from a fresh start, `IDX` has reached `LEN`, and the buffer's addresses were read once each, ascending. -/
theorem State.absorbBuffer_eq (s : State) (base : Addr) (len : Len) :
    s.absorbBuffer base len =
      { s with
        sum := sumAfter (bufferBytes s.mem base len.toNat)
        lh := lhAfter (bufferBytes s.mem base len.toNat)
        crc := crcAfter (bufferBytes s.mem base len.toNat)
        idx := len
        reads := (bufferAddrs base len.toNat).reverse ++ s.reads } := by
  rw [State.absorbBuffer, State.absorb_eq _ _ _ (by simpa using len.isLt)]
  simp [State.startConsensus, State.coreInit, State.sumInit, State.lhInit, State.crcInit, sumAfter, lhAfter, crcAfter,
    bufferBytes, bufferAddrs, List.range_eq_range']

/-- Step 3 votes on the checksums of the buffer (R92, R93). -/
theorem State.absorbBuffer_resolve (s : State) (base : Addr) (len : Len) :
    (s.absorbBuffer base len).resolve = agreedOn (bufferBytes s.mem base len.toNat) := by
  rw [State.absorbBuffer_eq]; rfl

/-! ### The contract check -/

/-- The check finds nothing exactly where the reference is not null and the length is below the ceiling (R94). -/
theorem checkCauses_nil_iff (base : Addr) (len : Len) :
    checkCauses base len = [] ↔ base ≠ 0 ∧ len.toNat < 1048576 := by
  by_cases h1 : base = nullRef <;> by_cases h2 : maxLen ≤ len.toNat
  · simp [checkCauses, h1, h2, nullRef]
  · simp [checkCauses, h1, h2, nullRef]
  · have h3 : ¬ len.toNat < 1048576 := Nat.not_lt.2 h2
    simp [checkCauses, h1, h2, h3]
  · have h3 : len.toNat < 1048576 := Nat.lt_of_not_le h2
    simp [checkCauses, h1, h2, h3]
    exact h1

/-- What a checked command answers (R94, R116 to R118): a stop where the CORE is halted; where the contract is broken
the raised violation; the body's work otherwise. -/
theorem checkedCommand_cases (base : Addr) (len : Len) (body : State → State) (s : State) :
    (s.fault ≠ 0 ∧ checkedCommand base len body s = .fault (.halted s.fault)) ∨
    (s.fault = 0 ∧ checkCauses base len ≠ [] ∧
      checkedCommand base len body s = .next (s.raise (checkCauses base len))) ∨
    (s.fault = 0 ∧ checkCauses base len = [] ∧ checkedCommand base len body s = .next (body s)) := by
  by_cases hf : s.fault = 0
  · have hh : s.halted = false := s.not_halted_iff.2 hf
    cases hc : checkCauses base len with
    | nil => exact .inr (.inr ⟨hf, rfl, by simp [checkedCommand, hh, hc]⟩)
    | cons c rest => exact .inr (.inl ⟨hf, by simp, by simp [checkedCommand, hh, hc]⟩)
  · exact .inl ⟨hf, by simp [checkedCommand, s.halted_iff.2 hf]⟩

/-- If a checked command answers `next t`, the CORE was running, and `t` is the raised violation or the body's work. -/
theorem checkedCommand_next (base : Addr) (len : Len) (body : State → State) (s t : State)
    (h : checkedCommand base len body s = .next t) :
    s.fault = 0 ∧ ((checkCauses base len ≠ [] ∧ t = s.raise (checkCauses base len)) ∨
      (checkCauses base len = [] ∧ t = body s)) := by
  rcases checkedCommand_cases base len body s with ⟨_, e⟩ | ⟨hf, hc, e⟩ | ⟨hf, hc, e⟩
  · rw [e] at h; cases h
  · rw [e] at h; cases h; exact ⟨hf, .inl ⟨hc, rfl⟩⟩
  · rw [e] at h; cases h; exact ⟨hf, .inr ⟨hc, rfl⟩⟩

/-! ### How a command settles -/

theorem State.settleSave_some (s : State) (v : Word) : s.settleSave (some v) = (s.storeSlot v).respond .success := rfl

theorem State.settleSave_none (s : State) : s.settleSave none = s.respond .consensusFailure := rfl

/-- `VERIFY` settles with a response and nothing else (R97). -/
theorem State.settleVerify_eq (s : State) (r : Option Word) :
    s.settleVerify r = s.respond (match r with
      | some v => if v = s.slotValue then .success else .mismatch
      | none => .consensusFailure) := by
  cases r with
  | none => rfl
  | some v => by_cases h : v = s.slotValue <;> simp [State.settleVerify, h]

/-! ### The end of a command -/

theorem State.endCommand_of_halted (s : State) (h : s.fault ≠ 0) : s.endCommand = s := by
  simp [State.endCommand, s.halted_iff.2 h]

theorem State.endCommand_of_running (s : State) (h : s.fault = 0) :
    s.endCommand = { s with
      idx := Config.freeIdx s.draw
      opc := Config.freeOpc s.draw
      base := Config.freeBase s.draw
      len := Config.freeLen s.draw
      draw := s.draw + 1 } := by
  simp [State.endCommand, s.not_halted_iff.2 h]

@[simp] theorem State.endCommand_sum (s : State) : s.endCommand.sum = s.sum := by simp only [State.endCommand]; split <;> rfl
@[simp] theorem State.endCommand_lh (s : State) : s.endCommand.lh = s.lh := by simp only [State.endCommand]; split <;> rfl
@[simp] theorem State.endCommand_crc (s : State) : s.endCommand.crc = s.crc := by simp only [State.endCommand]; split <;> rfl
@[simp] theorem State.endCommand_slotValue (s : State) : s.endCommand.slotValue = s.slotValue := by simp only [State.endCommand]; split <;> rfl
@[simp] theorem State.endCommand_slotValid (s : State) : s.endCommand.slotValid = s.slotValid := by simp only [State.endCommand]; split <;> rfl
@[simp] theorem State.endCommand_fault (s : State) : s.endCommand.fault = s.fault := by simp only [State.endCommand]; split <;> rfl
@[simp] theorem State.endCommand_mem (s : State) : s.endCommand.mem = s.mem := by simp only [State.endCommand]; split <;> rfl
@[simp] theorem State.endCommand_host (s : State) : s.endCommand.host = s.host := by simp only [State.endCommand]; split <;> rfl
@[simp] theorem State.endCommand_responses (s : State) : s.endCommand.responses = s.responses := by simp only [State.endCommand]; split <;> rfl
@[simp] theorem State.endCommand_reads (s : State) : s.endCommand.reads = s.reads := by simp only [State.endCommand]; split <;> rfl

/-! ### The sequencer -/

theorem mapNext_next (f : State → State) (o : Host.Outcome State Fault Refusal) (t : State) (h : mapNext f o = .next t) :
    ∃ u, o = .next u ∧ t = f u := by
  cases o with
  | next u => simp only [mapNext, Host.Outcome.next.injEq] at h; exact ⟨u, rfl, h.symm⟩
  | fault r => cases h
  | refused r => cases h

/-- The command the latched registers hold after a word is accepted is the word decoded (R47, R58). -/
theorem State.accept_latchedCommand (s : State) (cmd : Command) : (s.accept cmd).latchedCommand = decode cmd := rfl

/-- What the CORE does with a word it accepts: the decoded command to its end, or `BADCMD` (R58). -/
theorem onCommand_cases (cmd : Command) (s : State) :
    (s.fault ≠ 0 ∧ onCommand cmd s = .fault (.halted s.fault)) ∨
    (∃ i, s.fault = 0 ∧ decode cmd = .ok i ∧ onCommand cmd s = mapNext State.endCommand (exec i (s.accept cmd))) ∨
    (∃ e, s.fault = 0 ∧ decode cmd = .error e ∧ onCommand cmd s = .next ((s.accept cmd).raise [.badcmd])) := by
  by_cases hf : s.fault = 0
  · have hh : s.halted = false := s.not_halted_iff.2 hf
    cases hd : decode cmd with
    | ok i => exact .inr (.inl ⟨i, hf, rfl, by simp [onCommand, hh, runLatched, State.accept_latchedCommand, hd]⟩)
    | error e => exact .inr (.inr ⟨e, hf, rfl, by simp [onCommand, hh, runLatched, State.accept_latchedCommand, hd]⟩)
  · exact .inl ⟨hf, by simp [onCommand, s.halted_iff.2 hf]⟩

/-- Everything a step can be, by the host's next action. -/
theorem step_nil (s : State) (h : s.host = []) :
    step s = if s.halted then .fault (.halted s.fault) else .next s := by
  simp [step, onHost, h, idle]

theorem step_cons (s : State) (a : HostAction) (rest : List HostAction) (h : s.host = a :: rest) :
    step s = onAction a s.takeAction := by
  simp [step, onHost, h]

/-- If a step answers `next t`, one of these holds. -/
theorem step_next (s t : State) (h : step s = .next t) :
    (s.host = [] ∧ s.fault = 0 ∧ t = s) ∨
    (∃ a v rest, s.host = .modify a v :: rest ∧ t = s.takeAction.modify a v) ∨
    (∃ rest, s.host = .assertReset :: rest ∧ t = s.takeAction.applyReset) ∨
    (∃ cmd rest i u, s.host = .present cmd :: rest ∧ s.fault = 0 ∧ decode cmd = .ok i ∧
      exec i (s.takeAction.accept cmd) = .next u ∧ t = u.endCommand) ∨
    (∃ cmd rest e, s.host = .present cmd :: rest ∧ s.fault = 0 ∧ decode cmd = .error e ∧
      t = (s.takeAction.accept cmd).raise [.badcmd]) := by
  cases hh : s.host with
  | nil =>
    rw [step_nil s hh] at h
    split at h
    · cases h
    · next hn => cases h; exact .inl ⟨rfl, by simpa [State.halted] using hn, rfl⟩
  | cons a rest =>
    rw [step_cons s a rest hh] at h
    cases a with
    | modify a v => cases h; exact .inr (.inl ⟨a, v, rest, rfl, rfl⟩)
    | assertReset => cases h; exact .inr (.inr (.inl ⟨rest, rfl, rfl⟩))
    | present cmd =>
      simp only [onAction] at h
      rcases onCommand_cases cmd s.takeAction with ⟨_, e⟩ | ⟨i, hf, hd, e⟩ | ⟨er, hf, hd, e⟩
      · rw [e] at h; cases h
      · rw [e] at h
        obtain ⟨u, hu, ht⟩ := mapNext_next _ _ _ h
        exact .inr (.inr (.inr (.inl ⟨cmd, rest, i, u, rfl, by simpa using hf, hd, hu, ht⟩)))
      · rw [e] at h; cases h
        exact .inr (.inr (.inr (.inr ⟨cmd, rest, er, rfl, by simpa using hf, hd, rfl⟩)))

end Sys2Proof.Machine
end

