-- ==== Sys2Proof/Laws/PerInstr.lean ====
section
/-! SUPPORT. Statements for all instructions, one lemma per constructor: the opcode of a command is the one the map of
spec/30_encoding.md R51 gives it, and is no reserved one. -/

namespace Sys2Proof.Laws

/-- The low byte of a command's word is its opcode, 0x01 or 0x02 (R51). -/
def OpcodeField.Statement (i : Instr) : Prop :=
  opcodeField (encode i) = i.opcode ∧ (i.opcode = 0x01 ∨ i.opcode = 0x02)

theorem opcodeField_encode (i : Instr) : opcodeField (encode i) = i.opcode := by
  apply BitVec.eq_of_getElem_eq
  intro k hk
  simp only [opcodeField, encode, BitVec.getElem_extractLsb']
  rw [BitVec.getLsbD_append]
  simp [hk]

theorem OpcodeField.save (base : Addr) (len : Len) : OpcodeField.Statement (.save base len) :=
  ⟨opcodeField_encode _, .inl rfl⟩

theorem OpcodeField.verify (base : Addr) (len : Len) : OpcodeField.Statement (.verify base len) :=
  ⟨opcodeField_encode _, .inr rfl⟩

end Sys2Proof.Laws
end

