-- ==== Sys2Proof/Laws/Runs.lean ====
section
/-! SUPPORT. Runs: one step first, then the rest. -/

namespace Sys2Proof.Machine

/-- A run of the model is the interface's run of the machine. -/
theorem runSteps_eq_core_run (n : Nat) (s : State) : runSteps n s = Host.Core.run Sys2Proof.core n s := by
  induction n generalizing s with
  | zero => rfl
  | succ n ih =>
    have hs : Sys2Proof.core.step s = step s := rfl
    simp only [runSteps, Host.Core.run, hs]
    cases step s with
    | next u => exact ih u
    | fault r => rfl
    | refused r => rfl

theorem runSteps_zero (s : State) : runSteps 0 s = .next s := rfl

/-- A run of `n + 1` steps ends in `t` where its first step leads to a state from which `n` steps end in `t`. -/
theorem runSteps_succ (n : Nat) (s t : State) :
    runSteps (n + 1) s = .next t ↔ ∃ u, step s = .next u ∧ runSteps n u = .next t := by
  cases h : step s with
  | next u => simp [runSteps, h]
  | fault r => simp [runSteps, h]
  | refused r => simp [runSteps, h]

end Sys2Proof.Machine
end

