-- ==== Sys2Proof/Tests/Slice0.lean ====
section
/-! SUPPORT. Tests, their expected values taken from spec/95_test_vectors.md or the rules named, and one witness for
the hypotheses of each statement that has any. -/

namespace Sys2Proof.Tests

open Sys2Proof Sys2Proof.Machine

/-! ### Well-formedness: a request each check refuses (R139), and the widest it admits -/

theorem test_base_too_wide_refused : (Request.save 0x100000000 1).baseFits = false ∧
    (Request.save 0x100000000 1).toInstr = none := by decide

theorem test_len_too_wide_refused : (Request.verify 0x1000 0x01000010).lenFits = false ∧
    (Request.verify 0x1000 0x01000010).toInstr = none := by decide

theorem test_widest_request : (Request.save 0xFFFFFFFF 0xFFFFFF).toInstr = some (.save 0xFFFFFFFF 0xFFFFFF) := by decide

/-! ### Decoding: words written out from R46 (BASE 63:32, LEN 31:8, OPC 7:0) -/

theorem test_decode_save :
    decode 0b0000000000000000001000000000000000000000000000000000000100000001 = .ok (.save 0x00002000 1) := by decide

theorem test_decode_verify :
    decode 0b0000000000000000000100000001000000000000000000000000001000000010 = .ok (.verify 0x00001010 2) := by decide

theorem test_decode_reserved : decode 0xFFFFFFFFFFFFFF00 = .error (.reservedOpcode 0x00) ∧
    decode 0xFFFFFFFFFFFFFFFF = .error (.reservedOpcode 0xFF) := by decide

theorem test_encode_worked_example : encode (.save 0x00001000 256) = 0x0000100000010001 := by decide

theorem test_table_word : decodeTableWord 64 0x0000200000000102 = some (.verify 0x00002000 1) ∧
    decodeTableWord 8 0x0000200000000102 = some (.verify 0 0) ∧ decodeTableWord 64 3 = none := by decide

theorem test_assemble_comment_and_alias :
    assemble "  save_checkpoint  0x00002000 , 1 ; as in 2.7 a".toList = some 0x0000200000000101 := by decide +kernel

theorem test_assemble_rejects : readLine "LOAD 1, 2".toList = .rejected ∧ readLine "SAVE 0x, 2".toList = .rejected ∧
    readLine "SAVE 1 2".toList = .rejected := by decide +kernel

/-! ### Units and voter (95_test_vectors.md 2.1 to 2.6) -/

theorem test_sum_wraps : sumNext 0xFFFFFF01 0xFF = 0x00000000 ∧ sumNext 0x000000FF 0xFF = 0x000001FE := by decide

theorem test_lh_sixth_byte : lhNext 0x02CA0033 0x36 = 0x56760663 := by decide

theorem test_crc_step_of_zero_byte : crcNext 0xFFFFFFFF 0x00 = 0x2DFD1072 := by decide

theorem test_nine_bytes : checksum1 [0x31, 0x32, 0x33, 0x34, 0x35, 0x36, 0x37, 0x38, 0x39] = 0x000001DD ∧
    checksum2 [0x31, 0x32, 0x33, 0x34, 0x35, 0x36, 0x37, 0x38, 0x39] = 0x90B21035 ∧
    checksum3 [0x31, 0x32, 0x33, 0x34, 0x35, 0x36, 0x37, 0x38, 0x39] = 0xCBF43926 := by decide +kernel

theorem test_vote_second_branch : vote 0x000002BC 0x0027379C 0x0027379C = some 0x0027379C ∧
    vote 0x00000001 0x80000001 0x00000003 = none := by decide

/-! ### Commands: one step each on a small machine (95_test_vectors.md 2.7) -/

/-- A running machine with a buffer space and a slot, its host about to present one word. -/
def machine (mem : Memory) (slot : Option Word) (cmd : Command) : State :=
  { State.reset with
    mem := mem, host := [.present cmd], slotValid := slot.isSome, slotValue := slot.getD 0x00000000 }

/-- What a step shows: the responses, the slot, `FAULT`. -/
def shown : Host.Outcome State Fault Refusal → Option (List Word × Bool × Word × BitVec 3)
  | .next t => some (t.responses, t.slotValid, t.slotValue, t.fault)
  | .fault _ => none
  | .refused _ => none

/-- Row a: SAVE of the byte 05. -/
theorem test_save_stores : shown (step (machine [(0x2000, 0x05)] none 0x0000200000000101)) =
    some ([0x00000000], true, 0x00000005, 0b000) := by decide +kernel

/-- Row f: a SAVE without consensus keeps the old checkpoint. -/
theorem test_save_keeps_the_old : shown (step (machine [(0x3000, 0x01), (0x3001, 0x04)] (some 5) 0x0000300000000201)) =
    some ([0xFFFFFFFF], true, 0x00000005, 0b000) := by decide +kernel

/-- Row w: a buffer that wraps past the top of the space and through address 0. -/
theorem test_save_wraps : shown (step (machine [(1, 0x09)] none 0xFFFFFFFE00000401)) =
    some ([0x00000000], true, 0x00000009, 0b000) := by decide +kernel

/-- Row c: another agreed value. -/
theorem test_verify_mismatch : shown (step (machine [(0x2000, 0x06)] (some 5) 0x0000200000000102)) =
    some ([0xFFFFFFFD], true, 0x00000005, 0b000) := by decide +kernel

/-- Row e: no consensus hides the mismatch. -/
theorem test_verify_no_consensus : shown (step (machine [(0x3000, 0x01), (0x3001, 0x04)] (some 5) 0x0000300000000202)) =
    some ([0xFFFFFFFF], true, 0x00000005, 0b000) := by decide +kernel

/-- Row h: an Empty slot. -/
theorem test_verify_empty : shown (step (machine [(0x1030, 0x31)] none 0x0000103000000902)) =
    some ([0xFFFFFFFE], false, 0x00000000, 0b000) := by decide +kernel

/-- Row s: both causes, no response. -/
theorem test_both_causes : shown (step (machine [] none 0x0000000010000002)) =
    some ([], false, 0x00000000, 0b011) := by decide +kernel

/-- Row t: an illegal opcode. -/
theorem test_badcmd : shown (step (machine [] (some 5) 0x0000100000000103)) =
    some ([], true, 0x00000005, 0b100) := by decide +kernel

/-- Row v: a halted machine answers nothing. -/
theorem test_halted_stops :
    step { machine [] none 0x0000100000000001 with fault := 0b010 } = .fault (.halted 0b010) := rfl

/-- P1 after command 1: what the unit registers hold. -/
theorem test_units_after_save : (match step (machine [(0x2000, 0x05)] none 0x0000200000000101) with
    | .next t => decide (t.sum = 0x00000005 ∧ t.lh = 0x00000005 ∧ t.crc = 0x5D97E4FD ∧ t.reads = [0x00002000])
    | .fault _ => false
    | .refused _ => false) = true := by decide +kernel

/-- A word of the table, presented first, is what the next step runs. -/
theorem test_fetch_word : shown (step (State.reset.withFetchWord 64 0x0000100000000001)) =
    some ([0x00000000], true, 0x00000000, 0b000) := by decide +kernel

theorem test_memory_canonical : Memory.write [(3, 0x01)] 3 0x00 = [] ∧
    Memory.write [(3, 0x01)] 2 0x07 = [(2, 0x07), (3, 0x01)] := by decide

/-! ### Witnesses: states and operands that meet the hypotheses of the statements -/

/-- A running machine with the byte 05 at 0x2000 and the slot Valid with 5. -/
def ready (host : List HostAction) : State :=
  { State.reset with mem := [(0x2000, 0x05)], host := host, slotValid := true, slotValue := 0x00000005 }

/-- The same with an Empty slot. -/
def fresh (host : List HostAction) : State := { State.reset with mem := [(0x2000, 0x05)], host := host }

theorem witness_DecodedWordReencodes : decode 0x0000200000000101 = .ok (.save 0x2000 1) := by decide

theorem witness_OpcodeMapIsExact :
    (0x0000200000000101 : Command) &&& 0xFF = 0x01 ∧ (0xFFFFFFFFFFFFFF02 : Command) &&& 0xFF = 0x02 ∧
    ((0x03 : Command) &&& 0xFF ≠ 0x01 ∧ (0x03 : Command) &&& 0xFF ≠ 0x02) ∧
    ((0x00 : Command) &&& 0xFF ≠ 0x01 ∧ (0x00 : Command) &&& 0xFF ≠ 0x02) := by decide

theorem witness_RequestsAreRangeChecked : (Request.save 0xFFFFFFFF 0xFFFFFF).toInstr = some (.save 0xFFFFFFFF 0xFFFFFF) := by
  decide

theorem witness_SumStepAddsTheByte : [(0x01 : Byte), 0x02].Perm [0x02, 0x01] := .swap _ _ _

theorem witness_SumClosedForm : [(0x31 : Byte), 0x32].length ≤ 1048575 := by decide

theorem witness_VoteIsTheSharedValue :
    ((0x05 : Word) = 0x05 ∨ (0x05 : Word) = 0x07) ∧
    ((0x01 : Word) ≠ 0x02 ∧ (0x02 : Word) = 0x02) ∧ ((0x01 : Word) ≠ 0x02 ∧ (0x01 : Word) ≠ 0x03 ∧ (0x02 : Word) ≠ 0x03) := by
  decide

/-- The contract's boundary: the longest legal length kept; the ceiling and the null reference not. -/
theorem witness_SaveMeaning : (fresh []).running ∧ contractKept 0x00000001 0x0FFFFF ∧ contractKept 0x00002000 1 ∧
    ¬contractKept 0x00000001 0x100000 ∧ ¬contractKept 0x00000000 0 := by decide

theorem witness_VerifyMeaning : (ready []).running ∧ (ready []).slotValid = true ∧ contractKept 0x00002000 0x0FFFFF ∧
    (fresh []).running ∧ (fresh []).slotValid = false ∧ ¬contractKept 0x00002000 0x100000 ∧
    ¬contractKept 0x00000000 1 := by decide

theorem witness_SaveOfTheEmptyBuffer : (fresh []).running ∧ (0x00000001 : Addr) ≠ 0 := by decide

/-- A read, none for want of a checkpoint, none for a broken contract. -/
theorem witness_ReadsExactlyTheBuffer :
    (∃ t, exec (.save 0x2000 1) (fresh []) = .next t) ∧ contractKept 0x2000 1 ∧
    (Instr.save 0x2000 1).opcode = 0x01 ∧ (ready []).slotValid = true ∧
    (∃ t, exec (.verify 0x2000 1) (fresh []) = .next t) ∧ (fresh []).slotValid = false ∧
    (∃ t, exec (.save 0 1) (fresh []) = .next t) ∧ ¬contractKept 0 1 ∧ 0 < (1 : Len).toNat :=
  ⟨⟨_, rfl⟩, by decide, by decide, by decide, ⟨_, rfl⟩, by decide, ⟨_, rfl⟩, by decide, by decide⟩

/-- A response, and a violation. -/
theorem witness_CommandFrame :
    (∃ t, exec (.verify 0x2000 1) (ready []) = .next t ∧ t.responses ≠ (ready []).responses) ∧
    (∃ t, exec (.save 0 1) (fresh []) = .next t ∧ t.fault ≠ (fresh []).fault) ∧ (ready []).slotValid = true ∧
    (Instr.verify 0x2000 1).opcode = 0x02 :=
  ⟨⟨_, rfl, by decide +kernel⟩, ⟨_, rfl, by decide⟩, by decide, by decide⟩

theorem witness_UnitsAreInitialisedFirst : (ready []).running ∧ contractKept 0x2000 1 ∧ (ready []).slotValid = true := by
  decide

theorem witness_UnitRegistersAfterACommand :
    (fresh [.present (encode (.save 0x2000 1))]).running ∧ contractKept 0x2000 1 ∧
    (fresh [.present (encode (.save 0x2000 1))]).host = .present (encode (.save 0x2000 1)) :: [] ∧
    (fresh [.present (encode (.verify 0x2000 1))]).slotValid = false ∧ ¬contractKept 0x2000 0x100000 := by decide

theorem witness_ByteCounterNeverWraps : contractKept 0x00000001 0x0FFFFF ∧ 0x0FFFFF ≤ (0x0FFFFF : Len).toNat := by decide

/-- The same byte at two addresses. -/
theorem witness_OutcomeDependsOnTheBytesAlone :
    bufferBytes (fresh []).mem 0x2000 1 = bufferBytes [(0x3000, 0x05)] 0x3000 1 ∧
    (∃ t, exec (.save 0x2000 1) (fresh []) = .next t) ∧
    (∃ t, exec (.save 0x3000 1) { State.reset with mem := [(0x3000, 0x05)] } = .next t) :=
  ⟨by decide, ⟨_, rfl⟩, ⟨_, rfl⟩⟩

theorem witness_ResponseCodes : ∃ t, exec (.save 0x2000 1) (fresh []) = .next t := ⟨_, rfl⟩

theorem witness_EveryCommandAnswersOrHalts : (fresh [.present 0]).running ∧ (fresh [.present 0]).host = .present 0 :: [] := by
  decide

/-- An illegal opcode on either side of the two legal ones, and both legal ones. -/
theorem witness_EveryApplicableCauseIsSet :
    (fresh [.present 0x03]).running ∧ (fresh [.present 0x03]).host = .present 0x03 :: [] ∧
    opcodeField 0x03 ≠ 0x01 ∧ opcodeField 0x03 ≠ 0x02 ∧ opcodeField 0x00 ≠ 0x01 ∧
    opcodeField 0x0000000010000002 = 0x02 ∧ opcodeField 0x0000100000000001 = 0x01 := by decide

theorem witness_IllegalWordHalts :
    (fresh [.present 0x0000100000000103]).running ∧
    (fresh [.present 0x0000100000000103]).host = .present 0x0000100000000103 :: [] ∧
    opcodeField 0x0000100000000103 ≠ 0x01 ∧ opcodeField 0x0000100000000103 ≠ 0x02 := by decide

theorem witness_ViolationsArePrecise : (fresh [.present 0]).running ∧
    ∃ t, step (fresh [.present 0]) = .next t ∧ t.fault ≠ 0 := ⟨by decide, _, rfl, by decide⟩

/-- Halted with nothing ahead, a word, a change of a byte, a reset. -/
theorem witness_HaltedIsTerminal :
    ¬({ fresh [] with fault := 0b001 } : State).running ∧ (fresh []).host = [] ∧
    (fresh [.present 0]).host = .present 0 :: [] ∧
    ({ fresh [.modify 7 1] with fault := 0b001 } : State).noResetAhead ∧
    (∃ t, runSteps 1 { fresh [.modify 7 1] with fault := 0b001 } = .next t) ∧
    (fresh [.assertReset]).host = .assertReset :: [] :=
  ⟨by decide, rfl, rfl, by decide, ⟨_, rfl⟩, rfl⟩

theorem witness_FaultIsSticky :
    (∃ t, step { fresh [.modify 7 1] with fault := 0b001 } = .next t) ∧
    (fresh [.modify 7 1]).host.head? ≠ some .assertReset ∧
    (∃ t, step { fresh [.assertReset] with fault := 0b001 } = .next t) ∧
    (fresh [.assertReset]).host.head? = some .assertReset := ⟨⟨_, rfl⟩, by decide, ⟨_, rfl⟩, rfl⟩

/-- The reset input on a halted machine whose slot is Valid. -/
theorem witness_ResetIsTheOnlyWayBack :
    ({ ready [.assertReset] with fault := 0b001 } : State).host = .assertReset :: [] ∧
    ∃ t, step { ready [.assertReset] with fault := 0b001 } = .next t ∧ t.slotValid = false ∧ t.fault = 0 :=
  ⟨rfl, _, rfl, rfl, rfl⟩

theorem witness_IdleKeepsTheState : (fresh []).running ∧ (fresh []).host = [] := by decide

theorem witness_HostChangesOneByte :
    (fresh [.modify 7 1]).mem.wf = true ∧ (fresh [.modify 7 1]).host = .modify 7 1 :: [] ∧ (8 : Addr) ≠ 7 := by decide

theorem witness_StepRunsTheDecodedCommand :
    (fresh [.present 0x0000200000000101]).running ∧
    (fresh [.present 0x0000200000000101]).host = .present 0x0000200000000101 :: [] ∧
    decode 0x0000200000000101 = .ok (.save 0x2000 1) := by decide

/-- A SAVE that fills the slot, and the reset input that empties it. -/
theorem witness_SlotStateMachine :
    (∃ t, step (fresh [.present (encode (.save 0x2000 1))]) = .next t ∧ t.slotValid ≠ (fresh []).slotValid) ∧
    contractKept 0x2000 1 ∧ agreedOn (bufferBytes (fresh []).mem 0x2000 1) = some 0x00000005 ∧
    (∃ t, step (ready [.assertReset]) = .next t) ∧ (ready [.assertReset]).host = .assertReset :: [] :=
  ⟨⟨_, rfl, by decide +kernel⟩, by decide, by decide +kernel, ⟨_, rfl⟩, rfl⟩

/-- A SAVE that answers 0, and one that answers -1 (the bytes 01 04) on an Empty and on a Valid slot. -/
theorem witness_SaveThenVerify :
    (fresh []).running ∧ contractKept 0x2000 1 ∧
    (fresh [.present (encode (.save 0x2000 1)), .present (encode (.verify 0x2000 1))]).host =
      .present (encode (.save 0x2000 1)) :: .present (encode (.verify 0x2000 1)) :: [] ∧
    agreedOn (bufferBytes (fresh []).mem 0x2000 1) = some 0x00000005 ∧
    agreedOn (bufferBytes [(0x3000, 0x01), (0x3001, 0x04)] 0x3000 2) = none ∧
    (fresh []).slotValid = false ∧ (ready []).slotValid = true := by decide +kernel

/-- The byte 05 saved and changed to 06. -/
theorem witness_CorruptionDetection :
    (fresh []).running ∧ contractKept 0x2000 1 ∧ agreedOn (bufferBytes (fresh []).mem 0x2000 1) = some 0x00000005 ∧
    (fresh [.present (encode (.save 0x2000 1)), .modify 0x2000 6, .present (encode (.verify 0x2000 1))]).host =
      .present (encode (.save 0x2000 1)) ::
        ([((0x2000 : Addr), (6 : Byte))].map (fun c => HostAction.modify c.1 c.2) ++
          .present (encode (.verify 0x2000 1)) :: []) := by decide +kernel

theorem witness_EarlyMutationPartsSumAndHash : 0 + 1048573 + 2 < 2 ^ 20 ∧ (0x80 : Byte) ≠ 0x00 := by decide

theorem witness_NoCheckpointGuard :
    (fresh [.present (encode (.verify 0x2000 1))]).running ∧ (fresh []).slotValid = false ∧ contractKept 0x2000 1 ∧
    (fresh [.present (encode (.verify 0x2000 1))]).host = .present (encode (.verify 0x2000 1)) :: [] ∧
    (fresh [.present (encode (.verify 0x2000 1))]).noResetAhead ∧
    (∃ t, runSteps 1 (fresh [.present (encode (.verify 0x2000 1))]) = .next t) ∧
    (ready []).slotValid = true ∧ (ready [.present (encode (.verify 0x2000 1))]).noResetAhead ∧
    (∃ t, runSteps 1 (ready [.present (encode (.verify 0x2000 1))]) = .next t) :=
  ⟨by decide, rfl, by decide, rfl, by decide, ⟨_, rfl⟩, rfl, by decide, ⟨_, rfl⟩⟩

theorem witness_StepRefinesTheReference :
    (fresh [.present 0x0000200000000101]).host = .present 0x0000200000000101 :: [] ∧
    ∃ t, step (fresh [.present 0x0000200000000101]) = .next t := ⟨rfl, _, rfl⟩

theorem witness_RunRefinesTheReference :
    ∃ t, runSteps (ready [.modify 7 1, .assertReset]).host.length (ready [.modify 7 1, .assertReset]) = .next t := ⟨_, rfl⟩

theorem witness_StepKeepsTheInvariant : (ready [.modify 7 1]).Inv ∧ ∃ t, step (ready [.modify 7 1]) = .next t :=
  ⟨⟨by decide, by simp [ready, State.reset], by decide⟩, _, rfl⟩

end Sys2Proof.Tests
end

/-! ### Command words

The fields of a word as numbers, and the two round trips (spec/30_encoding.md R46, R58). -/

namespace Sys2Proof

theorem toNat_opcodeField (w : Command) : (opcodeField w).toNat = w.toNat % 256 := by
  simp [opcodeField]

theorem toNat_lenField (w : Command) : (lenField w).toNat = w.toNat / 256 % 2 ^ 24 := by
  simp [lenField, Nat.shiftRight_eq_div_pow]

theorem toNat_baseField (w : Command) : (baseField w).toNat = w.toNat / 2 ^ 32 := by
  simp [baseField, Nat.shiftRight_eq_div_pow]
  omega

theorem toNat_encode (i : Instr) :
    (encode i).toNat = i.base.toNat * 2 ^ 32 + i.len.toNat * 2 ^ 8 + i.opcode.toNat := by
  rw [encode, BitVec.toNat_append, BitVec.toNat_append, ← Nat.shiftLeft_add_eq_or_of_lt i.opcode.isLt,
    ← Nat.shiftLeft_add_eq_or_of_lt i.len.isLt]
  simp only [Nat.shiftLeft_eq]
  ring

theorem lenField_encode (i : Instr) : lenField (encode i) = i.len := by
  apply BitVec.eq_of_toNat_eq
  have hlen := i.len.isLt
  have hopc := i.opcode.isLt
  rw [toNat_lenField, toNat_encode]
  omega

theorem baseField_encode (i : Instr) : baseField (encode i) = i.base := by
  apply BitVec.eq_of_toNat_eq
  have hlen := i.len.isLt
  have hopc := i.opcode.isLt
  rw [toNat_baseField, toNat_encode]
  omega

theorem decode_encode (i : Instr) : decode (encode i) = .ok i := by
  rw [decode, Laws.opcodeField_encode, lenField_encode, baseField_encode]
  cases i with
  | save base len => exact decodeFields_save len base
  | verify base len => exact decodeFields_verify len base

theorem encode_of_decode (w : Command) (i : Instr) (h : decode w = .ok i) : encode i = w := by
  obtain ⟨hopc, hlen, hbase⟩ := decode_ok_fields w i h
  apply BitVec.eq_of_toNat_eq
  rw [toNat_encode, ← hopc, ← hlen, ← hbase, toNat_opcodeField, toNat_lenField, toNat_baseField]
  omega

/-- Two commands with one word are one command. -/
theorem encode_inj (i j : Instr) (h : encode i = encode j) : i = j := by
  have hi := decode_encode i
  rw [h, decode_encode] at hi
  exact (Except.ok.inj hi).symm

theorem opcodeField_of_decode_error (w : Command) (e : DecodeError) (h : decode w = .error e) :
    opcodeField w ≠ 0x01 ∧ opcodeField w ≠ 0x02 := by
  constructor <;> intro hopc
  · rw [decode, hopc, decodeFields_save] at h; cases h
  · rw [decode, hopc, decodeFields_verify] at h; cases h

end Sys2Proof

/-! ### The units and the voter against the reference machine

The closed forms of R63 and R66, the table form of R71 and the majority count of R81. -/

namespace Sys2Proof.Machine

theorem sumNext_eq_ofNat (sum : Word) (b : Byte) : sumNext sum b = BitVec.ofNat 32 (sum.toNat + b.toNat) := by
  apply BitVec.eq_of_toNat_eq
  simp [sumNext, byteOperand]

theorem foldl_sumNext (sum : Word) (bs : List Byte) :
    bs.foldl sumNext sum = BitVec.ofNat 32 (sum.toNat + (bs.map BitVec.toNat).sum) := by
  induction bs generalizing sum with
  | nil => simp
  | cons b bs ih =>
    rw [List.foldl_cons, ih, sumNext_eq_ofNat]
    apply BitVec.eq_of_toNat_eq
    simp [Nat.add_assoc]

theorem checksum1_eq_ref (bs : List Byte) : checksum1 bs = refChecksum1 bs := by
  rw [checksum1, sumAfter, foldl_sumNext]
  simp [refChecksum1, sumInitValue]

/-- `LH.STEP` is multiplication by 31 and addition of the byte. -/
theorem lhNext_eq_ofNat (h : Word) (b : Byte) : lhNext h b = BitVec.ofNat 32 (31 * h.toNat + b.toNat) := by
  apply BitVec.eq_of_toNat_eq
  simp [lhNext, lhShift, byteOperand, Nat.shiftLeft_eq]
  omega

theorem foldl_lhNext (h : Word) (bs : List Byte) :
    bs.foldl lhNext h = BitVec.ofNat 32 (31 ^ bs.length * h.toNat + hashPoly bs) := by
  induction bs generalizing h with
  | nil => simp [hashPoly]
  | cons b bs ih =>
    rw [List.foldl_cons, ih, lhNext_eq_ofNat]
    apply BitVec.eq_of_toNat_eq
    simp only [BitVec.toNat_ofNat, List.length_cons, hashPoly]
    calc (31 ^ bs.length * ((31 * h.toNat + b.toNat) % 2 ^ 32) + hashPoly bs) % 2 ^ 32
        = (31 ^ bs.length * (31 * h.toNat + b.toNat) + hashPoly bs) % 2 ^ 32 :=
          ((Nat.mod_modEq _ _).mul_left _).add_right _
      _ = (31 ^ (bs.length + 1) * h.toNat + (31 ^ bs.length * b.toNat + hashPoly bs)) % 2 ^ 32 := by
          congr 1; ring

theorem checksum2_eq_ref (bs : List Byte) : checksum2 bs = refChecksum2 bs := by
  rw [checksum2, lhAfter, foldl_lhNext]
  simp [refChecksum2, lhInitValue]

theorem crcBitNext_eq_xor (c : Word) : crcBitNext c = (c >>> 1) ^^^ (if c.getLsbD 0 then crcPoly else 0) := by
  rw [crcBitNext]
  cases c.getLsbD 0 <;> simp

/-- A bit step is linear over GF(2). -/
theorem crcBitNext_xor (a b : Word) : crcBitNext (a ^^^ b) = crcBitNext a ^^^ crcBitNext b := by
  have hconst : (if (a ^^^ b).getLsbD 0 then crcPoly else 0) =
      (if a.getLsbD 0 then crcPoly else 0) ^^^ (if b.getLsbD 0 then crcPoly else 0) := by
    rw [BitVec.getLsbD_xor]
    cases a.getLsbD 0 <;> cases b.getLsbD 0 <;> simp
  rw [crcBitNext_eq_xor, crcBitNext_eq_xor a, crcBitNext_eq_xor b, hconst, BitVec.ushiftRight_xor_distrib]
  ac_rfl

theorem crcBits_xor (n : Nat) (a b : Word) : crcBits n (a ^^^ b) = crcBits n a ^^^ crcBits n b := by
  induction n generalizing a b with
  | zero => rfl
  | succ n ih => rw [crcBits, crcBitNext_xor, ih]; rfl

/-- Bit steps on a value whose bits below are zero only shift it. -/
theorem crcBits_of_low_bits_zero (n : Nat) (c : Word) (h : ∀ k < n, c.getLsbD k = false) : crcBits n c = c >>> n := by
  induction n generalizing c with
  | zero => simp [crcBits]
  | succ n ih =>
    have hbit : crcBitNext c = c >>> 1 := by rw [crcBitNext, h 0 (Nat.succ_pos n), if_neg Bool.false_ne_true]
    have hlow : ∀ k < n, (c >>> 1).getLsbD k = false := fun k hk => by
      rw [BitVec.getLsbD_ushiftRight]; exact h _ (by omega)
    rw [crcBits, hbit, ih _ hlow, ← BitVec.shiftRight_add, Nat.add_comm]

theorem getLsbD_byteMask (k : Nat) : (0x000000FF : Word).getLsbD k = decide (k < 8) := by
  rw [show (0x000000FF : Word) = BitVec.ofNat 32 (2 ^ 8 - 1) from rfl, BitVec.getLsbD_ofNat,
    Nat.testBit_two_pow_sub_one]
  by_cases h : k < 8 <;> simp [h]
  omega

/-- The register with the byte in it, cut into the table's index and the bits above it. -/
theorem xor_byteOperand_split (c : Word) (b : Byte) :
    c ^^^ byteOperand b = ((c ^^^ byteOperand b) &&& (0x000000FF : Word)) ^^^ ((c >>> 8) <<< 8) := by
  apply BitVec.eq_of_getLsbD_eq
  intro k hk
  rw [BitVec.getLsbD_xor, BitVec.getLsbD_xor, BitVec.getLsbD_and, getLsbD_byteMask, BitVec.getLsbD_shiftLeft]
  by_cases h : k < 8
  · simp [h]
  · have hb : b.getLsbD k = false := BitVec.getLsbD_of_ge _ _ (by omega)
    simp [h, hk, byteOperand, hb, show 8 + (k - 8) = k by omega]

/-- The table form of `CRC.STEP` (R71): by linearity the low byte and the rest go their own ways, and the rest is only
shifted. -/
theorem crcNext_eq_tableStep (c : Word) (b : Byte) : crcNext c b = crcTableStep c b := by
  have hlow : ∀ k < 8, ((c >>> 8) <<< 8).getLsbD k = false := fun k hk => by
    simp [BitVec.getLsbD_shiftLeft, hk]
  have hback : ((c >>> 8) <<< 8) >>> 8 = c >>> 8 := by
    apply BitVec.eq_of_getLsbD_eq
    intro k hk
    simp [BitVec.getLsbD_shiftLeft]
    intro h
    exact lt_of_not_ge fun h' => by simp [BitVec.getLsbD_of_ge c _ h'] at h
  rw [crcNext, crcStepsPerByte, xor_byteOperand_split, crcBits_xor, crcBits_of_low_bits_zero 8 _ hlow, hback]
  rfl

theorem checksum3_eq_ref (bs : List Byte) : checksum3 bs = refChecksum3 bs := by
  have hstep : crcNext = crcTableStep := funext fun c => funext fun b => crcNext_eq_tableStep c b
  rw [checksum3, crcAfter, hstep]
  rfl

theorem vote_eq_refVote (c1 c2 c3 : Word) : vote c1 c2 c3 = refVote c1 c2 c3 := by
  by_cases h12 : c1 = c2
  · simp [vote, refVote, List.count_cons, h12]
  by_cases h13 : c1 = c3
  · simp [vote, refVote, List.count_cons, h13]
  by_cases h23 : c2 = c3
  · simp [vote, refVote, List.count_cons, h13, h23, Ne.symm h13]
  · simp [vote, refVote, List.count_cons, h12, h13, h23, Ne.symm h12, Ne.symm h13, Ne.symm h23]

theorem agreedOn_eq_ref (bs : List Byte) : agreedOn bs = refAgreed bs := by
  rw [agreedOn, vote_eq_refVote, checksum1_eq_ref, checksum2_eq_ref, checksum3_eq_ref]
  rfl

end Sys2Proof.Machine

/-! ### What a command does

One rule per way a command can end (spec/42_checkpoint_commands.md R95, R97), read off `exec` once. -/

namespace Sys2Proof.Machine

@[simp] theorem State.withBufferTaken_sum (s : State) (base : Addr) (len : Len) :
    (s.withBufferTaken base len).sum = sumAfter (bufferBytes s.mem base len.toNat) := rfl
@[simp] theorem State.withBufferTaken_lh (s : State) (base : Addr) (len : Len) :
    (s.withBufferTaken base len).lh = lhAfter (bufferBytes s.mem base len.toNat) := rfl
@[simp] theorem State.withBufferTaken_crc (s : State) (base : Addr) (len : Len) :
    (s.withBufferTaken base len).crc = crcAfter (bufferBytes s.mem base len.toNat) := rfl
@[simp] theorem State.withBufferTaken_idx (s : State) (base : Addr) (len : Len) :
    (s.withBufferTaken base len).idx = len := rfl
@[simp] theorem State.withBufferTaken_opc (s : State) (base : Addr) (len : Len) :
    (s.withBufferTaken base len).opc = s.opc := rfl
@[simp] theorem State.withBufferTaken_base (s : State) (base : Addr) (len : Len) :
    (s.withBufferTaken base len).base = s.base := rfl
@[simp] theorem State.withBufferTaken_len (s : State) (base : Addr) (len : Len) :
    (s.withBufferTaken base len).len = s.len := rfl
@[simp] theorem State.withBufferTaken_slotValue (s : State) (base : Addr) (len : Len) :
    (s.withBufferTaken base len).slotValue = s.slotValue := rfl
@[simp] theorem State.withBufferTaken_slotValid (s : State) (base : Addr) (len : Len) :
    (s.withBufferTaken base len).slotValid = s.slotValid := rfl
@[simp] theorem State.withBufferTaken_fault (s : State) (base : Addr) (len : Len) :
    (s.withBufferTaken base len).fault = s.fault := rfl
@[simp] theorem State.withBufferTaken_mem (s : State) (base : Addr) (len : Len) :
    (s.withBufferTaken base len).mem = s.mem := rfl
@[simp] theorem State.withBufferTaken_host (s : State) (base : Addr) (len : Len) :
    (s.withBufferTaken base len).host = s.host := rfl
@[simp] theorem State.withBufferTaken_responses (s : State) (base : Addr) (len : Len) :
    (s.withBufferTaken base len).responses = s.responses := rfl
@[simp] theorem State.withBufferTaken_reads (s : State) (base : Addr) (len : Len) :
    (s.withBufferTaken base len).reads = (bufferAddrs base len.toNat).reverse ++ s.reads := rfl
@[simp] theorem State.withBufferTaken_draw (s : State) (base : Addr) (len : Len) :
    (s.withBufferTaken base len).draw = s.draw := rfl

theorem State.absorbBuffer_eq_withBufferTaken (s : State) (base : Addr) (len : Len) :
    s.absorbBuffer base len = s.withBufferTaken base len := s.absorbBuffer_eq base len

/-- The code `VERIFY` ends with where the slot holds `saved` and the vote answers the third argument (R97). -/
def verifyCode (saved : Word) : Option Word → ResultCode
  | some v => if v = saved then .success else .mismatch
  | none => .consensusFailure

theorem State.settleVerify_eq_respond (s : State) (r : Option Word) :
    s.settleVerify r = s.respond (verifyCode s.slotValue r) := by
  rw [State.settleVerify_eq]
  cases r <;> rfl

/-- How a command on a running CORE ends: the five ways of R94, R95 and R97, each with the state it leaves. -/
inductive CommandEffect (s : State) : Instr → State → Prop where
  /-- The contract is broken: `FAULT` takes the causes. -/
  | violation (i : Instr) (broken : ¬contractKept i.base i.len) :
      CommandEffect s i (s.raise (checkCauses i.base i.len))
  /-- `SAVE` with consensus. -/
  | stored (base : Addr) (len : Len) (v : Word) (kept : contractKept base len)
      (agreed : agreedOn (bufferBytes s.mem base len.toNat) = some v) :
      CommandEffect s (.save base len) (((s.withBufferTaken base len).storeSlot v).respond .success)
  /-- `SAVE` without consensus. -/
  | notStored (base : Addr) (len : Len) (kept : contractKept base len)
      (agreed : agreedOn (bufferBytes s.mem base len.toNat) = none) :
      CommandEffect s (.save base len) ((s.withBufferTaken base len).respond .consensusFailure)
  /-- `VERIFY` on a Valid slot. -/
  | verified (base : Addr) (len : Len) (kept : contractKept base len) (valid : s.slotValid = true) :
      CommandEffect s (.verify base len) ((s.withBufferTaken base len).respond
        (verifyCode s.slotValue (agreedOn (bufferBytes s.mem base len.toNat))))
  /-- `VERIFY` on an Empty slot. -/
  | noCheckpoint (base : Addr) (len : Len) (kept : contractKept base len) (empty : s.slotValid = false) :
      CommandEffect s (.verify base len) (s.respond .noCheckpoint)

theorem saveBody_effect (base : Addr) (len : Len) (s : State) (kept : contractKept base len) :
    CommandEffect s (.save base len) (saveBody base len s) := by
  rw [saveBody, State.absorbBuffer_resolve, State.absorbBuffer_eq_withBufferTaken]
  cases agreed : agreedOn (bufferBytes s.mem base len.toNat) with
  | some v => exact .stored base len v kept agreed
  | none => exact .notStored base len kept agreed

theorem verifyBody_effect (base : Addr) (len : Len) (s : State) (kept : contractKept base len) :
    CommandEffect s (.verify base len) (verifyBody base len s) := by
  cases hslot : s.slotValid with
  | true =>
    rw [verifyBody, if_pos hslot, State.absorbBuffer_resolve, State.absorbBuffer_eq_withBufferTaken,
      State.settleVerify_eq_respond]
    exact .verified base len kept hslot
  | false =>
    rw [verifyBody, if_neg (by simp [hslot])]
    exact .noCheckpoint base len kept hslot

theorem save_opcode_ne_verify (base : Addr) (len : Len) : (Instr.save base len).opcode ≠ 0x02 := by
  rw [Instr.opcode]; decide

theorem verify_opcode_ne_save (base : Addr) (len : Len) : (Instr.verify base len).opcode ≠ 0x01 := by
  rw [Instr.opcode]; decide

/-- A command's work past its contract check. -/
def commandWork : Instr → State → State
  | .save base len => saveBody base len
  | .verify base len => verifyBody base len

/-- Both commands are checked commands. -/
theorem exec_eq_checkedCommand (i : Instr) (s : State) :
    exec i s = checkedCommand i.base i.len (commandWork i) s := by
  cases i <;> rfl

theorem commandWork_effect (i : Instr) (s : State) (kept : contractKept i.base i.len) :
    CommandEffect s i (commandWork i s) := by
  cases i with
  | save base len => exact saveBody_effect base len s kept
  | verify base len => exact verifyBody_effect base len s kept

/-- A command that answers a next state was executed by a running CORE and ended in one of the five ways. -/
theorem exec_next (i : Instr) (s t : State) (h : exec i s = .next t) : s.running ∧ CommandEffect s i t := by
  rw [exec_eq_checkedCommand] at h
  obtain ⟨running, ⟨causes, rfl⟩ | ⟨noCause, rfl⟩⟩ := checkedCommand_next _ _ _ _ _ h
  · exact ⟨running, .violation i fun kept => causes ((checkCauses_nil_iff _ _).2 kept)⟩
  · exact ⟨running, commandWork_effect i s ((checkCauses_nil_iff _ _).1 noCause)⟩

/-- A running CORE ends every command. -/
theorem exec_of_running (i : Instr) (s : State) (running : s.running) :
    ∃ t, exec i s = .next t ∧ CommandEffect s i t := by
  obtain ⟨t, ht⟩ : ∃ t, exec i s = .next t := by
    rw [exec_eq_checkedCommand]
    rcases checkedCommand_cases i.base i.len (commandWork i) s with ⟨halted, _⟩ | ⟨_, _, e⟩ | ⟨_, _, e⟩
    · exact absurd running halted
    · exact ⟨_, e⟩
    · exact ⟨_, e⟩
  exact ⟨t, ht, (exec_next i s t ht).2⟩

namespace CommandEffect

variable {s t : State} {i : Instr}

/-! The frame of both commands. -/

theorem mem_eq (h : CommandEffect s i t) : t.mem = s.mem := by cases h <;> rfl
theorem host_eq (h : CommandEffect s i t) : t.host = s.host := by cases h <;> rfl
theorem opc_eq (h : CommandEffect s i t) : t.opc = s.opc := by cases h <;> rfl
theorem base_eq (h : CommandEffect s i t) : t.base = s.base := by cases h <;> rfl
theorem len_eq (h : CommandEffect s i t) : t.len = s.len := by cases h <;> rfl
theorem draw_eq (h : CommandEffect s i t) : t.draw = s.draw := by cases h <;> rfl

/-- Either the contract was broken and only `FAULT` can differ, or it was kept and `FAULT` does not differ. -/
theorem raise_or_fault_eq (h : CommandEffect s i t) :
    (¬contractKept i.base i.len ∧ t = s.raise (checkCauses i.base i.len)) ∨
    (contractKept i.base i.len ∧ t.fault = s.fault) := by
  cases h with
  | violation _ broken => exact .inl ⟨broken, rfl⟩
  | stored _ _ _ kept _ => exact .inr ⟨kept, rfl⟩
  | notStored _ _ kept _ => exact .inr ⟨kept, rfl⟩
  | verified _ _ kept _ => exact .inr ⟨kept, rfl⟩
  | noCheckpoint _ _ kept _ => exact .inr ⟨kept, rfl⟩

/-- The slot changes only where a `SAVE` has stored. -/
theorem slot_eq_or_stored (h : CommandEffect s i t) :
    (t.slotValid = s.slotValid ∧ t.slotValue = s.slotValue) ∨
    (∃ base len v, i = .save base len ∧ contractKept base len ∧
      agreedOn (bufferBytes s.mem base len.toNat) = some v ∧ t.slotValid = true ∧ t.slotValue = v) := by
  cases h with
  | violation => exact .inl ⟨rfl, rfl⟩
  | stored base len v kept agreed => exact .inr ⟨base, len, v, rfl, kept, agreed, rfl, rfl⟩
  | notStored => exact .inl ⟨rfl, rfl⟩
  | verified => exact .inl ⟨rfl, rfl⟩
  | noCheckpoint => exact .inl ⟨rfl, rfl⟩

/-- No command empties a Valid slot. -/
theorem slotValid_kept (h : CommandEffect s i t) (valid : s.slotValid = true) : t.slotValid = true := by
  rcases h.slot_eq_or_stored with ⟨same, _⟩ | ⟨_, _, _, _, _, _, stored, _⟩
  · exact same.trans valid
  · exact stored

/-- A `SAVE` that agreed on a value has stored it. -/
theorem slot_of_agreed {base : Addr} {len : Len} {v : Word} (h : CommandEffect s (.save base len) t)
    (kept : contractKept base len) (agreed : agreedOn (bufferBytes s.mem base len.toNat) = some v) :
    t.slotValid = true ∧ t.slotValue = v := by
  cases h with
  | violation _ broken => exact absurd kept broken
  | stored _ _ w _ agreed' => exact ⟨rfl, Option.some.inj (agreed'.symm.trans agreed)⟩
  | notStored _ _ _ agreed' => cases agreed'.symm.trans agreed

/-- A command gives no response, or one. -/
theorem responses_eq_or_append (h : CommandEffect s i t) :
    t.responses = s.responses ∨ ∃ c : ResultCode, t.responses = s.responses ++ [c.word] := by
  cases h with
  | violation => exact .inl rfl
  | stored => exact .inr ⟨_, rfl⟩
  | notStored => exact .inr ⟨_, rfl⟩
  | verified => exact .inr ⟨_, rfl⟩
  | noCheckpoint => exact .inr ⟨_, rfl⟩

/-- Past the contract check and, for `VERIFY`, the slot test, the units have taken the buffer. -/
theorem units_of_taken (h : CommandEffect s i t) (kept : contractKept i.base i.len)
    (uses : i.opcode = 0x01 ∨ s.slotValid = true) :
    t.sum = sumAfter (bufferBytes s.mem i.base i.len.toNat) ∧
    t.lh = lhAfter (bufferBytes s.mem i.base i.len.toNat) ∧
    t.crc = crcAfter (bufferBytes s.mem i.base i.len.toNat) := by
  cases h with
  | violation _ broken => exact absurd kept broken
  | stored => exact ⟨rfl, rfl, rfl⟩
  | notStored => exact ⟨rfl, rfl, rfl⟩
  | verified => exact ⟨rfl, rfl, rfl⟩
  | noCheckpoint base len _ empty =>
    rcases uses with isSave | valid
    · exact absurd isSave (verify_opcode_ne_save base len)
    · cases empty.symm.trans valid

/-- A broken contract and a `VERIFY` on an Empty slot leave the units alone. -/
theorem units_of_not_taken (h : CommandEffect s i t)
    (skips : ¬contractKept i.base i.len ∨ (i.opcode = 0x02 ∧ s.slotValid = false)) :
    t.sum = s.sum ∧ t.lh = s.lh ∧ t.crc = s.crc := by
  rcases skips with broken | ⟨isVerify, empty⟩
  · rcases h.raise_or_fault_eq with ⟨_, rfl⟩ | ⟨kept, _⟩
    · exact ⟨rfl, rfl, rfl⟩
    · exact absurd kept broken
  · cases h with
    | violation => exact ⟨rfl, rfl, rfl⟩
    | stored base len => exact absurd isVerify (save_opcode_ne_verify base len)
    | notStored base len => exact absurd isVerify (save_opcode_ne_verify base len)
    | verified _ _ _ valid => cases empty.symm.trans valid
    | noCheckpoint => exact ⟨rfl, rfl, rfl⟩

end CommandEffect
end Sys2Proof.Machine

/-! ### What a step does -/

namespace Sys2Proof.Machine

/-- What a step that leads on can be: one rule per kind of host action, a command word as the word of its command. -/
inductive StepEffect (s : State) : State → Prop where
  /-- Nothing is presented (R124). -/
  | idle (host : s.host = []) (running : s.running) : StepEffect s s
  /-- The host changes a byte (R57). -/
  | modified (a : Addr) (v : Byte) (rest : List HostAction) (host : s.host = .modify a v :: rest) :
      StepEffect s (s.takeAction.modify a v)
  /-- The reset input (R130). -/
  | reset (rest : List HostAction) (host : s.host = .assertReset :: rest) : StepEffect s s.takeAction.applyReset
  /-- A legal word, its command run to its end (R58, R136). -/
  | command (i : Instr) (rest : List HostAction) (u : State) (host : s.host = .present (encode i) :: rest)
      (running : s.running) (effect : CommandEffect (s.takeAction.accept (encode i)) i u) :
      StepEffect s u.endCommand
  /-- An illegal word raises `BADCMD` (R113). -/
  | illegal (cmd : Command) (rest : List HostAction) (e : DecodeError) (host : s.host = .present cmd :: rest)
      (running : s.running) (bad : decode cmd = .error e) : StepEffect s ((s.takeAction.accept cmd).raise [.badcmd])

theorem step_effect (s t : State) (h : step s = .next t) : StepEffect s t := by
  rcases step_next s t h with ⟨host, running, rfl⟩ | ⟨a, v, rest, host, rfl⟩ | ⟨rest, host, rfl⟩ |
    ⟨cmd, rest, i, u, host, running, hd, hu, rfl⟩ | ⟨cmd, rest, e, host, running, bad, rfl⟩
  · exact .idle host running
  · exact .modified a v rest host
  · exact .reset rest host
  · cases encode_of_decode cmd i hd
    exact .command i rest u host running (exec_next i _ u hu).2
  · exact .illegal cmd rest e host running bad

theorem step_of_assertReset (s : State) (rest : List HostAction) (host : s.host = .assertReset :: rest) :
    step s = .next s.takeAction.applyReset := step_cons s _ rest host

/-- A running CORE takes every legal word to the end of its command. -/
theorem step_of_present (s : State) (i : Instr) (rest : List HostAction) (running : s.running)
    (host : s.host = .present (encode i) :: rest) :
    ∃ u, step s = .next u.endCommand ∧ CommandEffect (s.takeAction.accept (encode i)) i u := by
  obtain ⟨u, hu, effect⟩ := exec_of_running i (s.takeAction.accept (encode i)) running
  refine ⟨u, ?_, effect⟩
  rcases onCommand_cases (encode i) s.takeAction with ⟨halted, _⟩ | ⟨j, _, hd, e⟩ | ⟨_, _, hd, _⟩
  · exact absurd running halted
  · cases Except.ok.inj (hd.symm.trans (decode_encode i))
    rw [step_cons s _ rest host, onAction, e, hu, mapNext]
  · cases hd.symm.trans (decode_encode i)

theorem ResultCode.word_mem_responseWords (c : ResultCode) : c.word ∈ responseWords := by
  cases c <;> decide

/-! ### The commands' frame, units and counter -/

/-- Settles O28: each clause is a frame rule of `CommandEffect`. -/
theorem commandFrame : Obligations.CommandFrame := by
  intro i s t h
  have effect := (exec_next i s t h).2
  refine ⟨fun a => by rw [effect.mem_eq], effect.mem_eq, effect.host_eq, effect.opc_eq, effect.base_eq, effect.len_eq,
    effect.draw_eq, fun isVerify => ?_, effect.slotValid_kept, fun responded => ?_, fun faulted => ?_⟩
  · rcases effect.slot_eq_or_stored with ⟨hvalid, hvalue⟩ | ⟨base, len, v, rfl, _⟩
    · exact ⟨hvalue, hvalid⟩
    · exact absurd isVerify (save_opcode_ne_verify base len)
  · rcases effect.raise_or_fault_eq with ⟨_, rfl⟩ | ⟨_, hfault⟩
    · exact absurd rfl responded
    · exact hfault
  · rcases effect.raise_or_fault_eq with ⟨_, rfl⟩ | ⟨_, hfault⟩
    · rfl
    · exact absurd hfault faulted

/-- Settles O30: the word is accepted, its command ends in one of its ways, and the end of a command leaves the units
alone. -/
theorem unitRegistersAfterACommand : Obligations.UnitRegistersAfterACommand := by
  intro s i rest running host
  obtain ⟨u, hstep, effect⟩ := step_of_present s i rest running host
  refine ⟨u.endCommand, hstep, fun kept uses => ?_, fun skips => ?_⟩
  · simpa using effect.units_of_taken kept uses
  · simpa using effect.units_of_not_taken skips

/-- Settles O31: by the closed form of the byte loop, the counter is the number of turns, which is below `2^24`. -/
theorem byteCounterNeverWraps : Obligations.ByteCounterNeverWraps := by
  intro s base len k kept hk
  obtain ⟨_, hlen⟩ := kept
  have hidx : (State.absorb base k s.startConsensus).idx.toNat = k := by
    have hk24 : k < 16777216 := by omega
    rw [State.absorb_eq base k _ (by simpa using hk24)]
    simp [Nat.mod_eq_of_lt hk24]
  exact ⟨hidx, by omega⟩

/-! ### `FAULT`, reset and the slot -/

/-- Settles O40: a command starts from `FAULT` = 0, so no step but the reset input meets a bit it could clear. -/
theorem faultIsSticky : Obligations.FaultIsSticky := by
  intro s t h
  cases step_effect s t h with
  | idle host _ => simp [host]
  | modified a v rest host => simp [host]
  | reset rest host => simp [host]
  | command i rest u host running _ => simp [host, running]
  | illegal cmd rest e host running _ => simp [host, running]

/-- A step keeps a Valid slot and a halt, unless it is the reset input. -/
theorem StepEffect.valid_and_halt_kept {s t : State} (h : StepEffect s t) :
    s.host.head? = some .assertReset ∨
      ((s.slotValid = true → t.slotValid = true) ∧ (s.fault ≠ 0 → t.fault ≠ 0)) := by
  cases h with
  | idle => exact .inr ⟨id, id⟩
  | modified => exact .inr ⟨id, id⟩
  | reset rest host => exact .inl (by rw [host]; rfl)
  | command i rest u host running effect =>
    exact .inr ⟨fun valid => u.endCommand_slotValid.trans (effect.slotValid_kept valid),
      fun halted => absurd running halted⟩
  | illegal cmd rest e host running _ => exact .inr ⟨id, fun halted => absurd running halted⟩

/-- Settles O41: the reset input's own state, and `StepEffect.valid_and_halt_kept` for every other step. -/
theorem resetIsTheOnlyWayBack : Obligations.ResetIsTheOnlyWayBack := by
  refine ⟨rfl, rfl, rfl, fun s rest host => ?_, fun s t h back => ?_⟩
  · exact ⟨_, step_of_assertReset s rest host, rfl, rfl, rfl, rfl, by simp [host], rfl, rfl⟩
  · rcases (step_effect s t h).valid_and_halt_kept with isReset | ⟨validKept, haltKept⟩
    · exact isReset
    · rcases back with ⟨valid, emptied⟩ | ⟨halted, ended⟩
      · cases emptied.symm.trans (validKept valid)
      · exact absurd ended (haltKept halted)

/-- Settles O45: the reset input and a `SAVE` with consensus write the slot, and every other rule of `StepEffect` leaves
it alone. -/
theorem slotStateMachine : Obligations.SlotStateMachine := by
  intro s t h
  cases step_effect s t h with
  | idle host _ => simp [host]
  | modified a v rest host => simp [host]
  | reset rest host => simp [host]
  | command i rest u host running effect =>
    refine ⟨by simp [host], fun base len v rest' host' kept agreed => ?_, fun changed => .inr ?_⟩
    · rw [host, List.cons.injEq, HostAction.present.injEq] at host'
      cases encode_inj _ _ host'.1
      simpa using effect.slot_of_agreed kept agreed
    · rw [State.endCommand_slotValid, State.endCommand_slotValue] at changed
      rcases effect.slot_eq_or_stored with ⟨hvalid, hvalue⟩ | ⟨base, len, v, rfl, kept, agreed, _⟩
      · exact absurd changed (by simp [hvalid, hvalue])
      · exact ⟨base, len, v, rest, host, kept, agreed⟩
  | illegal cmd rest e host running bad =>
    refine ⟨by simp [host], fun base len v rest' host' => ?_, fun changed => by simp at changed⟩
    rw [host, List.cons.injEq, HostAction.present.injEq] at host'
    rw [host'.1, decode_encode] at bad
    cases bad

/-! ### The invariant -/

/-- Settles O53: no byte is listed, no response is given, and the Empty slot holds 0. -/
theorem resetMeetsTheInvariant : Obligations.ResetMeetsTheInvariant :=
  ⟨Memory.wf_nil, fun _ hr => absurd hr List.not_mem_nil, fun _ => rfl⟩

/-- Settles O52: the buffer space changes only by a host's write, a command adds at most a word of R54, and what empties
the slot zeroes it. -/
theorem stepKeepsTheInvariant : Obligations.StepKeepsTheInvariant := by
  intro s t inv h
  obtain ⟨wf, answers, emptyZero⟩ := inv
  cases step_effect s t h with
  | idle => exact ⟨wf, answers, emptyZero⟩
  | modified a v => exact ⟨Memory.write_wf _ a v wf, answers, emptyZero⟩
  | reset => exact ⟨wf, answers, fun _ => rfl⟩
  | illegal => exact ⟨wf, answers, emptyZero⟩
  | command i rest u host running effect =>
    have hmem : u.endCommand.mem = s.mem := by rw [State.endCommand_mem, effect.mem_eq]; rfl
    refine ⟨hmem ▸ wf, fun r hr => ?_, fun empty => ?_⟩
    · rw [State.endCommand_responses] at hr
      rcases effect.responses_eq_or_append with same | ⟨c, added⟩
      · exact answers r (same ▸ hr)
      · rw [added, List.mem_append, List.mem_singleton] at hr
        rcases hr with old | rfl
        · exact answers r old
        · exact c.word_mem_responseWords
    · rw [State.endCommand_slotValid] at empty
      rw [State.endCommand_slotValue]
      rcases effect.slot_eq_or_stored with ⟨hvalid, hvalue⟩ | ⟨_, _, _, _, _, _, hvalid, _⟩
      · exact hvalue.trans (emptyZero (hvalid.symm.trans empty))
      · cases hvalid.symm.trans empty

end Sys2Proof.Machine

/-! ### The reference machine

What the reference machine reads in a word is what the decoder reads, so each rule of `CommandEffect` and `StepEffect` is
one of its actions (spec/42_checkpoint_commands.md R93). -/

namespace Sys2Proof.Machine

@[simp] theorem State.toRef_mem (s : State) : s.toRef.mem = s.mem := rfl
@[simp] theorem State.raise_toRef (s : State) (causes : List Cause) :
    (s.raise causes).toRef = { s.toRef with causes := s.fault ||| causeMask causes } := rfl
@[simp] theorem State.endCommand_toRef (s : State) : s.endCommand.toRef = s.toRef := by simp [State.toRef]

theorem State.toRef_slot_of_valid (s : State) (valid : s.slotValid = true) : s.toRef.slot = some s.slotValue :=
  if_pos valid

theorem State.toRef_slot_of_empty (s : State) (empty : s.slotValid = false) : s.toRef.slot = none := by
  simp [State.toRef, empty]

theorem refBuffer_eq_bufferBytes (m : Memory) (base : Addr) (n : Nat) :
    refBuffer m base.toNat n = bufferBytes m base n := by
  rw [bufferBytes, bufferAddrs, List.map_map]
  refine List.map_congr_left fun i _ => congrArg m.read ?_
  apply BitVec.eq_of_toNat_eq
  simp [byteAddr]

/-- The mask of the contract check's causes, as the reference machine counts it. -/
theorem causeMask_checkCauses (base : Addr) (len : Len) :
    causeMask (checkCauses base len) =
      BitVec.ofNat 3 ((if base.toNat = 0 then 1 else 0) + (if 1048576 ≤ len.toNat then 2 else 0)) := by
  have hnull : base = nullRef ↔ base.toNat = 0 := BitVec.toNat_inj.symm
  have hmax : maxLen = 1048576 := rfl
  by_cases h1 : base.toNat = 0 <;> by_cases h2 : 1048576 ≤ len.toNat <;>
    simp [checkCauses, hnull, hmax, h1, h2, causeMask, Cause.bit]

theorem contractKept_iff_toNat (base : Addr) (len : Len) :
    contractKept base len ↔ ¬(base.toNat = 0 ∨ 1048576 ≤ len.toNat) := by
  simp [← BitVec.toNat_inj]

theorem opcode_toNat (i : Instr) : i.opcode.toNat = 1 ∨ i.opcode.toNat = 2 := by
  cases i with
  | save => exact .inl rfl
  | verify => exact .inr rfl

/-- The numbers the reference machine reads in a command's word are the command's operands. -/
theorem refCommand_encode (i : Instr) (r : RefState) :
    refCommand (encode i).toNat r =
      if i.base.toNat = 0 ∨ 1048576 ≤ i.len.toNat then { r with causes := causeMask (checkCauses i.base i.len) }
      else if i.opcode.toNat = 1 then refSave (bufferBytes r.mem i.base i.len.toNat) r
      else refVerify (bufferBytes r.mem i.base i.len.toNat) r := by
  rw [refCommand, ← toNat_opcodeField, ← toNat_lenField, ← toNat_baseField, Laws.opcodeField_encode, lenField_encode,
    baseField_encode, if_pos (opcode_toNat i), causeMask_checkCauses, refBuffer_eq_bufferBytes]

theorem refCommand_of_broken (i : Instr) (r : RefState) (broken : ¬contractKept i.base i.len) :
    refCommand (encode i).toNat r = { r with causes := causeMask (checkCauses i.base i.len) } := by
  rw [contractKept_iff_toNat, not_not] at broken
  rw [refCommand_encode, if_pos broken]

theorem refCommand_save (base : Addr) (len : Len) (r : RefState) (kept : contractKept base len) :
    refCommand (encode (.save base len)).toNat r = refSave (bufferBytes r.mem base len.toNat) r :=
  (refCommand_encode (.save base len) r).trans (if_neg ((contractKept_iff_toNat base len).1 kept))

theorem refCommand_verify (base : Addr) (len : Len) (r : RefState) (kept : contractKept base len) :
    refCommand (encode (.verify base len)).toNat r = refVerify (bufferBytes r.mem base len.toNat) r :=
  (refCommand_encode (.verify base len) r).trans (if_neg ((contractKept_iff_toNat base len).1 kept))

theorem refCommand_of_decode_error (cmd : Command) (e : DecodeError) (r : RefState) (h : decode cmd = .error e) :
    refCommand cmd.toNat r = { r with causes := 0b100 } := by
  obtain ⟨notSave, notVerify⟩ := opcodeField_of_decode_error cmd e h
  rw [refCommand, ← toNat_opcodeField, if_neg]
  rintro (hopc | hopc)
  · exact notSave (BitVec.eq_of_toNat_eq hopc)
  · exact notVerify (BitVec.eq_of_toNat_eq hopc)

theorem refSave_of_some (bs : List Byte) (r : RefState) (v : Word) (h : agreedOn bs = some v) :
    refSave bs r = { r with slot := some v, answers := r.answers ++ [ResultCode.success.word] } := by
  rw [refSave, ← agreedOn_eq_ref, h]
  rfl

theorem refSave_of_none (bs : List Byte) (r : RefState) (h : agreedOn bs = none) :
    refSave bs r = { r with answers := r.answers ++ [ResultCode.consensusFailure.word] } := by
  rw [refSave, ← agreedOn_eq_ref, h]
  rfl

theorem refVerify_of_slot_none (bs : List Byte) (r : RefState) (h : r.slot = none) :
    refVerify bs r = { r with answers := r.answers ++ [ResultCode.noCheckpoint.word] } := by
  rw [refVerify, h]
  rfl

theorem refVerify_of_slot_some (bs : List Byte) (r : RefState) (saved : Word) (h : r.slot = some saved) :
    refVerify bs r = { r with answers := r.answers ++ [(verifyCode saved (agreedOn bs)).word] } := by
  rw [refVerify, h, ← agreedOn_eq_ref]
  cases agreedOn bs with
  | none => rfl
  | some v => by_cases hv : v = saved <;> simp [verifyCode, hv] <;> rfl

/-- Every way a command ends is what the reference machine does with its word. -/
theorem CommandEffect.refines {s t : State} {i : Instr} (h : CommandEffect s i t) (running : s.running) :
    t.toRef = refCommand (encode i).toNat s.toRef := by
  cases h with
  | violation _ broken => rw [refCommand_of_broken i _ broken, State.raise_toRef, running]; simp
  | stored base len v kept agreed =>
    rw [refCommand_save base len _ kept, State.toRef_mem, refSave_of_some _ _ v agreed]; rfl
  | notStored base len kept agreed =>
    rw [refCommand_save base len _ kept, State.toRef_mem, refSave_of_none _ _ agreed]; rfl
  | verified base len kept valid =>
    rw [refCommand_verify base len _ kept, refVerify_of_slot_some _ _ _ (s.toRef_slot_of_valid valid)]; rfl
  | noCheckpoint base len kept empty =>
    rw [refCommand_verify base len _ kept, refVerify_of_slot_none _ _ (s.toRef_slot_of_empty empty)]; rfl

/-- A step on an action of the host is the reference machine's action, and takes it off the list (R93, R103). -/
theorem StepEffect.refines {s t : State} {a : HostAction} {rest : List HostAction} (host : s.host = a :: rest)
    (h : StepEffect s t) : t.toRef = refAction s.toRef a ∧ t.host = rest := by
  have taken : s.takeAction.host = rest := by rw [State.takeAction_host, host, List.tail_cons]
  cases h with
  | idle host' => cases host'.symm.trans host
  | modified a v rest' host' =>
    cases host'.symm.trans host
    exact ⟨rfl, taken⟩
  | reset rest' host' =>
    cases host'.symm.trans host
    exact ⟨rfl, taken⟩
  | command i rest' u host' running effect =>
    cases host'.symm.trans host
    exact ⟨u.endCommand_toRef.trans (effect.refines running), u.endCommand_host.trans (effect.host_eq.trans taken)⟩
  | illegal cmd rest' e host' running bad =>
    cases host'.symm.trans host
    refine ⟨?_, taken⟩
    rw [refAction, refCommand_of_decode_error cmd e _ bad, State.raise_toRef, State.accept_fault, State.takeAction_fault,
      running]
    rfl

/-- Settles O51, by induction on the host's actions: the first step is the reference machine's action, and leaves a state
whose host has the rest ahead. -/
theorem runRefinesTheReference : Obligations.RunRefinesTheReference := by
  intro s t h
  generalize hhost : s.host = actions at h
  induction actions generalizing s with
  | nil =>
    cases h
    exact ⟨rfl, hhost⟩
  | cons a rest ih =>
    obtain ⟨u, hstep, hrun⟩ := (runSteps_succ rest.length s t).1 h
    obtain ⟨href, hrest⟩ := (step_effect s u hstep).refines hhost
    rw [List.foldl_cons, ← href]
    exact ih u hrest hrun

end Sys2Proof.Machine

/-! ### The addresses of a buffer

Numbers below `2^32` name different bytes of a buffer, wherever it starts (spec/20_memory.md R30, R40). -/

namespace Sys2Proof.Machine

theorem toNat_byteAddr (base : Addr) (i : Nat) : (byteAddr base i).toNat = (base.toNat + i) % 2 ^ 32 := by
  simp [byteAddr]

/-- No two of the first `2^32` bytes of a buffer share an address. -/
theorem byteAddr_inj (base : Addr) {i j : Nat} (hi : i < 2 ^ 32) (hj : j < 2 ^ 32)
    (h : byteAddr base i = byteAddr base j) : i = j := by
  have hnat : (base.toNat + i) % 2 ^ 32 = (base.toNat + j) % 2 ^ 32 := by
    rw [← toNat_byteAddr, ← toNat_byteAddr, h]
  omega

theorem bufferAddrs_nodup (base : Addr) (n : Nat) (hn : n ≤ 2 ^ 32) : (bufferAddrs base n).Nodup :=
  List.Nodup.map_on
    (fun _ hi _ hj => byteAddr_inj base ((List.mem_range.1 hi).trans_le hn) ((List.mem_range.1 hj).trans_le hn))
    List.nodup_range

theorem bufferAddrs_getElem? (base : Addr) {n i : Nat} (h : i < n) :
    (bufferAddrs base n)[i]? = some (byteAddr base i) := by
  rw [bufferAddrs, List.getElem?_map, List.getElem?_range h, Option.map_some]

/-- Settles O32: an address is its number modulo `2^32`; the four addresses of the example are computed. -/
theorem bufferAddressesWrap : Obligations.BufferAddressesWrap :=
  ⟨toNat_byteAddr, by decide⟩

/-! ### The addresses a command reads -/

theorem opcode_eq_verify_iff (i : Instr) : i.opcode = 0x02 ↔ i.opcode ≠ 0x01 := by
  cases i with
  | save base len => exact iff_of_false (save_opcode_ne_verify base len) (not_not_intro rfl)
  | verify base len => exact iff_of_true rfl (verify_opcode_ne_save base len)

/-- A command leaves the units alone exactly where it does not take its buffer (R94, R97). -/
theorem skips_iff_not_takes (i : Instr) (s : State) :
    (¬contractKept i.base i.len ∨ (i.opcode = 0x02 ∧ s.slotValid = false)) ↔
      ¬(contractKept i.base i.len ∧ (i.opcode = 0x01 ∨ s.slotValid = true)) := by
  rw [opcode_eq_verify_iff, ← Bool.not_eq_true, ← not_or]
  exact not_and_or.symm

/-- A command that takes its buffer reads the buffer's addresses; one that does not reads nothing. -/
theorem CommandEffect.reads_cases {s t : State} {i : Instr} (h : CommandEffect s i t) :
    (contractKept i.base i.len ∧ (i.opcode = 0x01 ∨ s.slotValid = true) ∧
      t.reads = (bufferAddrs i.base i.len.toNat).reverse ++ s.reads) ∨
    ((¬contractKept i.base i.len ∨ (i.opcode = 0x02 ∧ s.slotValid = false)) ∧ t.reads = s.reads) := by
  cases h with
  | violation _ broken => exact .inr ⟨.inl broken, rfl⟩
  | stored _ _ _ kept => exact .inl ⟨kept, .inl rfl, rfl⟩
  | notStored _ _ kept => exact .inl ⟨kept, .inl rfl, rfl⟩
  | verified _ _ kept valid => exact .inl ⟨kept, .inr valid, rfl⟩
  | noCheckpoint _ _ _ empty => exact .inr ⟨.inr ⟨rfl, empty⟩, rfl⟩

/-- Settles O27: the way the command ended says what it read, and a length below `2^24` keeps the buffer's addresses
apart. -/
theorem readsExactlyTheBuffer : Obligations.ReadsExactlyTheBuffer := by
  refine ⟨fun i s t h => ?_, fun base len => ⟨?_, fun i hi => bufferAddrs_getElem? base hi⟩⟩
  · rcases (exec_next i s t h).2.reads_cases with ⟨kept, uses, taken⟩ | ⟨skips, untouched⟩
    · exact ⟨fun _ _ => taken, fun skips => absurd ⟨kept, uses⟩ ((skips_iff_not_takes i s).1 skips)⟩
    · exact ⟨fun kept uses => absurd ⟨kept, uses⟩ ((skips_iff_not_takes i s).1 skips), fun _ => untouched⟩
  · exact bufferAddrs_nodup base len.toNat (len.isLt.le.trans (by decide))

/-! ### The host's change of a byte -/

theorem step_of_modify (s : State) (a : Addr) (v : Byte) (rest : List HostAction)
    (host : s.host = .modify a v :: rest) : step s = .next (s.takeAction.modify a v) := step_cons s _ rest host

/-- Settles O43: the step is the write, running or halted, and the rest are the rules of a write to the buffer space. -/
theorem hostChangesOneByte : Obligations.HostChangesOneByte := by
  intro s a v rest wf host
  have taken : s.takeAction = { s with host := rest } := by rw [State.takeAction, host, List.tail_cons]
  refine ⟨s.takeAction.modify a v, step_of_modify s a v rest host, ?frame, ?canonical, ?written, ?others⟩
  case frame => rw [taken]; rfl
  case canonical => exact Memory.write_wf s.mem a v wf
  case written => exact Memory.read_write_same s.mem a v wf
  case others => exact fun a' ha' => Memory.read_write_other s.mem a a' v ha'

end Sys2Proof.Machine

/-! ### The encoding's statements

Both round trips and the sum of R46 are the rules of "Command words"; the opcode map by match and mask (R51), the host's
range check (R139) and the assembler's lines (R56) are settled here. -/

namespace Sys2Proof

/-- Settles O1: each field of the encoded word is the command's own, and the opcode selects the command's kind. -/
theorem commandWordRoundTrip : Obligations.CommandWordRoundTrip := decode_encode

/-- Settles O2: a word is the sum of its fields, and a word that decodes has the command's fields. -/
theorem decodedWordReencodes : Obligations.DecodedWordReencodes := encode_of_decode

/-- All 64 bits of a word belong to a field (R46). -/
theorem toNat_eq_sum_fields (w : Command) :
    w.toNat = (baseField w).toNat * 2 ^ 32 + (lenField w).toNat * 2 ^ 8 + (opcodeField w).toNat := by
  rw [toNat_baseField, toNat_lenField, toNat_opcodeField]
  omega

/-- Settles O3: the sum as the decoder reads it and as the encoder writes it. -/
theorem commandWordIsTheSumOfItsFields : Obligations.CommandWordIsTheSumOfItsFields :=
  ⟨toNat_eq_sum_fields, toNat_encode⟩

/-! ### The opcode map by match and mask -/

/-- The mask of R51 keeps the opcode and nothing else. -/
theorem and_opcodeMask (w : Command) : w &&& 0x00000000000000FF = (opcodeField w).zeroExtend 64 := by
  apply BitVec.eq_of_toNat_eq
  have hlow : w.toNat &&& 255 = w.toNat % 256 := Nat.and_two_pow_sub_one_eq_mod w.toNat 8
  have hopc : w.toNat % 256 % 2 ^ 64 = w.toNat % 256 := by omega
  rw [BitVec.toNat_and, BitVec.toNat_setWidth, toNat_opcodeField, hopc]
  exact hlow

/-- A match of R51 is a test of the opcode. -/
theorem and_opcodeMask_eq_iff (w : Command) (opc : Opcode) :
    w &&& 0x00000000000000FF = opc.zeroExtend 64 ↔ opcodeField w = opc := by
  rw [and_opcodeMask]
  refine ⟨fun h => ?_, fun h => by rw [h]⟩
  have hlow := congrArg (BitVec.setWidth 8) h
  simpa using hlow

theorem decode_of_opcodeField_save (w : Command) (h : opcodeField w = 0x01) :
    decode w = .ok (.save (baseField w) (lenField w)) := by
  rw [decode, h, decodeFields_save]

theorem decode_of_opcodeField_verify (w : Command) (h : opcodeField w = 0x02) :
    decode w = .ok (.verify (baseField w) (lenField w)) := by
  rw [decode, h, decodeFields_verify]

theorem decode_of_opcodeField_reserved (w : Command) (notSave : opcodeField w ≠ 0x01)
    (notVerify : opcodeField w ≠ 0x02) : decode w = .error (.reservedOpcode (opcodeField w)) :=
  decodeFields_reserved _ _ _ notSave notVerify

/-- Settles O4: each match is a test of the opcode, on which the decoder's choice rests alone. -/
theorem opcodeMapIsExact : Obligations.OpcodeMapIsExact := by
  intro w
  have isSave := and_opcodeMask_eq_iff w 0x01
  have isVerify := and_opcodeMask_eq_iff w 0x02
  exact ⟨fun h => decode_of_opcodeField_save w (isSave.1 h), fun h => decode_of_opcodeField_verify w (isVerify.1 h),
    fun h1 h2 => decode_of_opcodeField_reserved w (mt isSave.2 h1) (mt isVerify.2 h2)⟩

/-- Settles O5: each word is decoded. -/
theorem wordsOfTheSpecDecode : Obligations.WordsOfTheSpecDecode := by
  unfold Obligations.WordsOfTheSpecDecode
  decide

/-! ### The host's range check -/

theorem Request.wellFormed_iff (r : Request) : r.wellFormed = true ↔ r.base < 2 ^ 32 ∧ r.len < 2 ^ 24 := by
  rw [Request.wellFormed, Bool.and_eq_true, Request.baseFits, Request.lenFits, decide_eq_true_iff, decide_eq_true_iff]

theorem Request.toInstr_of_not_wellFormed (r : Request) (h : ¬r.wellFormed = true) : r.toInstr = none :=
  if_neg h

/-- A request in range becomes a command whose operands are the request's own. -/
theorem Request.toInstr_of_wellFormed (r : Request) (h : r.wellFormed = true) :
    ∃ i, r.toInstr = some i ∧ i.toRequest = r := by
  obtain ⟨hbase, hlen⟩ := r.wellFormed_iff.1 h
  have baseKept := (BitVec.toNat_ofNat r.base 32).trans (Nat.mod_eq_of_lt hbase)
  have lenKept := (BitVec.toNat_ofNat r.len 24).trans (Nat.mod_eq_of_lt hlen)
  cases r with
  | save base len => exact ⟨_, if_pos h, congrArg₂ Request.save baseKept lenKept⟩
  | verify base len => exact ⟨_, if_pos h, congrArg₂ Request.verify baseKept lenKept⟩

/-- Settles O6: out of range there is no command, and in range the command keeps both operands. -/
theorem requestsAreRangeChecked : Obligations.RequestsAreRangeChecked := by
  intro r
  rw [← r.wellFormed_iff]
  by_cases inRange : r.wellFormed = true
  · obtain ⟨i, built, same⟩ := r.toInstr_of_wellFormed inRange
    exact ⟨by simp [built, inRange], fun j hj => Option.some.inj (built.symm.trans hj) ▸ same⟩
  · have refused := r.toInstr_of_not_wellFormed inRange
    exact ⟨by simp [refused, inRange], fun j hj => by simp [refused] at hj⟩

/-- Settles O7: each line is assembled. -/
theorem assemblerReadsTheSyntax : Obligations.AssemblerReadsTheSyntax := by
  unfold Obligations.AssemblerReadsTheSyntax
  decide

end Sys2Proof

/-! ### How a presented word ends

A running CORE answers every word with one response, or halts with none (spec/30_encoding.md R45, R54;
spec/60_exceptions.md R116, R117). -/

namespace Sys2Proof.Machine

/-- Every cause has a bit of `FAULT` (R21). -/
theorem Cause.bit_ne_zero (c : Cause) : c.bit ≠ 0 := by cases c <;> decide

/-- Raising a violation with any cause at all sets a bit of `FAULT`. -/
theorem causeMask_eq_zero_iff (causes : List Cause) : causeMask causes = 0 ↔ causes = [] := by
  cases causes with
  | nil => exact iff_of_true rfl rfl
  | cons c rest =>
    exact iff_of_false (fun hzero => c.bit_ne_zero (BitVec.or_eq_zero_iff.1 hzero).1) (List.cons_ne_nil c rest)

theorem ResultCode.word_toInt (c : ResultCode) : c.word.toInt = c.toInt := by cases c <;> decide

/-- A command breaks its contract and halts the CORE without a response, or keeps it and gives one response, `SAVE` one
of its own two codes (R54, R95, R97, R117). -/
theorem CommandEffect.halts_or_responds {s t : State} {i : Instr} (h : CommandEffect s i t) :
    (t.fault ≠ 0 ∧ t.responses = s.responses) ∨
    (t.fault = s.fault ∧ ∃ c : ResultCode, t.responses = s.responses ++ [c.word] ∧
      (i.opcode = 0x01 → c = .success ∨ c = .consensusFailure)) := by
  cases h with
  | violation _ broken =>
    have hmask : causeMask (checkCauses i.base i.len) ≠ 0 := fun hzero =>
      broken ((checkCauses_nil_iff _ _).1 ((causeMask_eq_zero_iff _).1 hzero))
    exact .inl ⟨fun hfault => hmask (BitVec.or_eq_zero_iff.1 hfault).2, rfl⟩
  | stored => exact .inr ⟨rfl, .success, rfl, fun _ => .inl rfl⟩
  | notStored => exact .inr ⟨rfl, .consensusFailure, rfl, fun _ => .inr rfl⟩
  | verified base len => exact .inr ⟨rfl, _, rfl, fun isSave => absurd isSave (verify_opcode_ne_save base len)⟩
  | noCheckpoint base len => exact .inr ⟨rfl, _, rfl, fun isSave => absurd isSave (verify_opcode_ne_save base len)⟩

/-- Settles O34: the four words are computed; what a command adds is read off the way it ended. -/
theorem responseCodes : Obligations.ResponseCodes := by
  refine ⟨ResultCode.word_toInt, rfl, rfl, rfl, rfl, fun i s t h => ?_⟩
  rcases (exec_next i s t h).2.halts_or_responds with ⟨_, silent⟩ | ⟨_, c, responded, ofSave⟩
  · exact .inl silent
  · refine .inr ⟨c.word, c.word_mem_responseWords, responded, fun isSave => ?_⟩
    rcases ofSave isSave with rfl | rfl
    · exact .inl rfl
    · exact .inr rfl

/-- A running CORE latches the fields of a word that does not decode and raises `BADCMD` (R113). -/
theorem step_of_present_illegal (s : State) (cmd : Command) (rest : List HostAction) (e : DecodeError)
    (running : s.running) (host : s.host = .present cmd :: rest) (bad : decode cmd = .error e) :
    step s = .next ((s.takeAction.accept cmd).raise [.badcmd]) := by
  rw [step_cons s _ rest host]
  rcases onCommand_cases cmd s.takeAction with ⟨halted, _⟩ | ⟨_, _, good, _⟩ | ⟨_, _, _, raised⟩
  · exact absurd running halted
  · cases bad.symm.trans good
  · exact raised

/-- A running CORE runs the command of a word that decodes (R58, R136). -/
theorem step_of_present_legal (s : State) (cmd : Command) (rest : List HostAction) (i : Instr)
    (running : s.running) (host : s.host = .present cmd :: rest) (good : decode cmd = .ok i) :
    step s = mapNext State.endCommand (exec i (s.takeAction.accept cmd)) := by
  rw [step_cons s _ rest host]
  rcases onCommand_cases cmd s.takeAction with ⟨halted, _⟩ | ⟨j, _, good', ran⟩ | ⟨_, _, bad, _⟩
  · exact absurd running halted
  · cases good.symm.trans good'
    exact ran
  · cases good.symm.trans bad

theorem State.takeAction_of_host (s : State) (a : HostAction) (rest : List HostAction) (host : s.host = a :: rest) :
    s.takeAction = { s with host := rest } := by
  rw [State.takeAction, host, List.tail_cons]

/-- Settles O35: a legal word ends its command with one response or a broken contract; an illegal one raises
`BADCMD`. -/
theorem everyCommandAnswersOrHalts : Obligations.EveryCommandAnswersOrHalts := by
  intro s cmd rest running host
  have taken := s.takeAction_of_host _ rest host
  cases decoded : decode cmd with
  | ok i =>
    cases encode_of_decode cmd i decoded
    obtain ⟨u, hstep, effect⟩ := step_of_present s i rest running host
    refine ⟨u.endCommand, hstep, ?_, ?_⟩
    · rw [State.endCommand_host, effect.host_eq, taken]; rfl
    · rw [State.endCommand_fault, State.endCommand_responses]
      rcases effect.halts_or_responds with halts | ⟨hfault, c, responded, _⟩
      · exact .inr halts
      · exact .inl ⟨hfault.trans running, c.word, c.word_mem_responseWords, responded⟩
  | error e =>
    refine ⟨_, step_of_present_illegal s cmd rest e running host decoded, ?_, .inr ⟨?_, rfl⟩⟩
    · rw [taken]; rfl
    · simp [running, causeMask, Cause.bit]

/-- Settles O37: the opcode is reserved, so the step is the raised `BADCMD`, and `FAULT` was 0. -/
theorem illegalWordHalts : Obligations.IllegalWordHalts := by
  intro s cmd rest running host notSave notVerify
  have bad := decode_of_opcodeField_reserved cmd notSave notVerify
  rw [step_of_present_illegal s cmd rest _ running host bad, s.takeAction_of_host _ rest host, State.raise,
    State.accept_fault, running]
  rfl

/-- Settles O44: the latched fields of a word that decodes are the command's opcode, length and reference. -/
theorem stepRunsTheDecodedCommand : Obligations.StepRunsTheDecodedCommand := by
  intro s cmd rest i running host good
  obtain ⟨hopc, hlen, hbase⟩ := decode_ok_fields cmd i good
  rw [step_of_present_legal s cmd rest i running host good, s.takeAction_of_host _ rest host, State.accept, hopc, hlen,
    hbase]

end Sys2Proof.Machine

/-! ### One step of the reference machine

The single step behind `runRefinesTheReference` (spec/42_checkpoint_commands.md R93, R103). -/

namespace Sys2Proof.Machine

/-- Settles O50: a step that leads on is one of the rules of `StepEffect`, and each is the reference machine's action. -/
theorem stepRefinesTheReference : Obligations.StepRefinesTheReference :=
  fun s t _ _ host h => (step_effect s t h).refines host

end Sys2Proof.Machine

/-! ### The sum and the linear hash

The closed forms of `foldl_sumNext` and `foldl_lhNext`, with the bounds and special cases that follow from them
(spec/40_checksum_units.md R62 to R66). -/

namespace Sys2Proof.Machine

theorem toNat_sumNext (sum : Word) (b : Byte) : (sumNext sum b).toNat = (sum.toNat + b.toNat) % 2 ^ 32 := by
  rw [sumNext_eq_ofNat, BitVec.toNat_ofNat]

/-- The sum of the bytes is all that `SUM.STEP` keeps of them, so their order does not matter. -/
theorem foldl_sumNext_perm (sum : Word) {bs bs' : List Byte} (h : bs.Perm bs') :
    bs.foldl sumNext sum = bs'.foldl sumNext sum := by
  rw [foldl_sumNext, foldl_sumNext, (h.map BitVec.toNat).sum_eq]

/-- Settles O8: the step on one byte, and the sum of a permuted sequence. -/
theorem sumStepAddsTheByte : Obligations.SumStepAddsTheByte :=
  ⟨fun s b => ⟨toNat_sumNext s.sum b, rfl⟩, fun sum _ _ h => foldl_sumNext_perm sum h⟩

theorem toNat_checksum1 (bs : List Byte) : (checksum1 bs).toNat = (bs.map BitVec.toNat).sum % 2 ^ 32 := by
  rw [checksum1_eq_ref, refChecksum1, BitVec.toNat_ofNat]

theorem sum_toNat_le (bs : List Byte) : (bs.map BitVec.toNat).sum ≤ bs.length * 255 := by
  have h := List.sum_le_card_nsmul (bs.map BitVec.toNat) 255 fun n hn => by
    obtain ⟨b, _, rfl⟩ := List.mem_map.1 hn
    exact Nat.le_of_lt_succ b.isLt
  simpa using h

/-- Settles O9: the closed form, and 255 for each of at most 1,048,575 bytes stays below `2^32`. -/
theorem sumClosedForm : Obligations.SumClosedForm := by
  refine ⟨fun _ => rfl, rfl, by decide, fun bs => ⟨toNat_checksum1 bs, fun hlen => ?_⟩⟩
  have hsum := sum_toNat_le bs
  rw [toNat_checksum1, Nat.mod_eq_of_lt (by omega)]
  exact ⟨rfl, by omega⟩

theorem toNat_lhNext (h : Word) (b : Byte) : (lhNext h b).toNat = (31 * h.toNat + b.toNat) % 2 ^ 32 := by
  rw [lhNext_eq_ofNat, BitVec.toNat_ofNat]

/-- The byte may be added before the old value is subtracted (R65). -/
theorem lhNext_eq_add_sub (h : Word) (b : Byte) : lhNext h b = ((h <<< 5) + b.zeroExtend 32) - h := by
  rw [lhNext, lhShift, byteOperand]
  exact sub_add_eq_add_sub _ _ _

/-- Settles O10: every order of reduction is multiplication by 31 and addition of the byte, modulo `2^32`. -/
theorem linearHashStep : Obligations.LinearHashStep := by
  refine ⟨fun s b => ?_, by decide⟩
  have hs := s.lh.isLt
  rw [State.lhStep_lh, ← lhNext_eq_add_sub, toNat_lhNext]
  exact ⟨by omega, rfl, rfl, by omega⟩

theorem hashPoly_zeros_append (n : Nat) (b : Byte) : hashPoly (List.replicate n 0x00 ++ [b]) = b.toNat := by
  induction n with
  | zero => simp [hashPoly]
  | succ n ih => rw [List.replicate_succ, List.cons_append, hashPoly, ih]; simp

theorem sum_zeros_append (n : Nat) (b : Byte) :
    ((List.replicate n 0x00 ++ [b]).map BitVec.toNat).sum = b.toNat := by
  simp

/-- Settles O11: the closed form is `foldl_lhNext`; behind zeros, polynomial and sum are both the last byte. -/
theorem linearHashClosedForm : Obligations.LinearHashClosedForm := by
  refine ⟨fun h bs => ?_, rfl, by decide, fun n b => ?_⟩
  · rw [foldl_lhNext, BitVec.toNat_ofNat]
  · rw [checksum1_eq_ref, checksum2_eq_ref, refChecksum1, refChecksum2, hashPoly_zeros_append, sum_zeros_append]

end Sys2Proof.Machine

/-! ### The units together

Each step writes its own unit's register, so the composites of R74 act on the three registers independently. -/

namespace Sys2Proof.Machine

/-- Settles O19: both sides of each equation are one and the same update of the three unit registers. -/
theorem unitStepsAreIndependent : Obligations.UnitStepsAreIndependent :=
  ⟨fun _ _ => ⟨rfl, rfl, rfl, rfl⟩, fun _ => ⟨rfl, rfl, rfl⟩⟩

theorem foldl_coreAbsorb (s : State) (bs : List Byte) :
    bs.foldl State.coreAbsorb s =
      { s with sum := bs.foldl sumNext s.sum, lh := bs.foldl lhNext s.lh, crc := bs.foldl crcNext s.crc } := by
  induction bs generalizing s with
  | nil => rfl
  | cons b bs ih => rw [List.foldl_cons, ih]; rfl

/-- Settles O20: `CORE.INIT` sets what the three checksum functions start from. -/
theorem checksumsDependOnTheBytesAlone : Obligations.ChecksumsDependOnTheBytesAlone := by
  refine ⟨fun s bs => ?_, rfl, rfl, rfl⟩
  rw [foldl_coreAbsorb]
  exact ⟨rfl, rfl, rfl⟩

end Sys2Proof.Machine

/-! ### The CRC register bit by bit

The bit step's test, its mirror image, and the linearity of the eight steps of a byte (spec/40_checksum_units.md R69 to
R73). -/

namespace Sys2Proof.Machine

theorem getLsbD_zero_iff_odd (c : Word) : c.getLsbD 0 = true ↔ c.toNat % 2 = 1 := by
  rw [← BitVec.testBit_toNat, Nat.testBit_zero, decide_eq_true_iff]

theorem crcBitNext_eq_ite_odd (c : Word) :
    crcBitNext c = if c.toNat % 2 = 1 then (c >>> 1) ^^^ 0xEDB88320 else c >>> 1 := by
  rw [crcBitNext, crcPoly]
  exact if_congr (getLsbD_zero_iff_odd c) rfl rfl

theorem toNat_ushiftRight_one (c : Word) : (c >>> 1).toNat = c.toNat / 2 := by
  rw [BitVec.toNat_ushiftRight, Nat.shiftRight_one]

/-- Settles O13: the test on bit 0 is the test for an odd value. -/
theorem crcBitStep : Obligations.CrcBitStep := by
  refine ⟨fun s => ?_, toNat_ushiftRight_one, by decide⟩
  rw [State.crcBit, crcBitNext_eq_ite_odd]

theorem reverse_xor (a b : Word) : (a ^^^ b).reverse = a.reverse ^^^ b.reverse := by
  apply BitVec.eq_of_getLsbD_eq
  intro i hi
  simp [BitVec.getLsbD_reverse]

theorem reverse_ushiftRight_one (c : Word) : (c >>> 1).reverse = c.reverse <<< 1 := by
  apply BitVec.eq_of_getLsbD_eq
  intro i hi
  rw [BitVec.getLsbD_reverse, BitVec.getMsbD_ushiftRight, BitVec.getLsbD_shiftLeft, BitVec.getLsbD_reverse]
  simp [hi]

theorem reverse_crcPoly : crcPoly.reverse = 0x04C11DB7 := by decide +kernel

/-- Settles O15: reversal turns each part of the bit step into its mirror image. -/
theorem crcBitReflected : Obligations.CrcBitReflected := by
  intro c
  rw [BitVec.msb_reverse, crcBitNext, apply_ite BitVec.reverse, reverse_xor, reverse_ushiftRight_one, reverse_crcPoly]

/-- The eight steps are linear in the register and the byte together (R71). -/
theorem crcNext_xor (c c' : Word) (b b' : Byte) : crcNext (c ^^^ c') (b ^^^ b') = crcNext c b ^^^ crcNext c' b' := by
  have hbyte : byteOperand (b ^^^ b') = byteOperand b ^^^ byteOperand b' := BitVec.setWidth_xor
  rw [crcNext, crcNext, crcNext, ← crcBits_xor, hbyte]
  congr 1
  ac_rfl

/-- Settles O16: the table form is `crcNext_eq_tableStep`. -/
theorem crcTableForm : Obligations.CrcTableForm :=
  ⟨crcNext_eq_tableStep, crcNext_xor, by decide⟩

/-- Nine bytes of the source's check value leave this in the register (R73). -/
theorem crcAfter_nine_bytes :
    crcAfter [0x31, 0x32, 0x33, 0x34, 0x35, 0x36, 0x37, 0x38, 0x39] = 0x340BC6D9 := by decide +kernel

/-- Settles O17: the complement is the exclusive-or with all ones, which is the register's initial value. -/
theorem crcOutAndCheckValues : Obligations.CrcOutAndCheckValues := by
  refine ⟨fun s => ?_, fun s => ?_, by decide, crcAfter_nine_bytes, ?_⟩
  · exact (BitVec.xor_allOnes).symm
  · rw [State.crcOut, State.crcInit_crc]; decide
  · rw [checksum3, crcAfter_nine_bytes]; decide

end Sys2Proof.Machine

/-! ### The CRC register as a polynomial over GF(2)

Bit 0 of the register is the coefficient of x^31, so a bit step multiplies by x modulo the generator
(spec/40_checksum_units.md section 4). -/

namespace Sys2Proof.Machine

open Polynomial

/-- A byte as a polynomial over GF(2), bit 0 highest (R35). -/
noncomputable def gf2Byte (b : Byte) : (ZMod 2)[X] :=
  ∑ i ∈ Finset.range 8, if b.getLsbD i then X ^ (7 - i) else 0

theorem gf2Word_xor (a b : Word) : gf2Word (a ^^^ b) = gf2Word a + gf2Word b := by
  rw [gf2Word, gf2Word, gf2Word, ← Finset.sum_add_distrib]
  refine Finset.sum_congr rfl fun i _ => ?_
  rw [BitVec.getLsbD_xor]
  cases a.getLsbD i <;> cases b.getLsbD i <;> simp [CharTwo.add_self_eq_zero]

/-- A logical shift to the right multiplies by x what does not fall out. -/
theorem X_mul_gf2Word (c : Word) :
    X * gf2Word c = gf2Word (c >>> 1) + if c.getLsbD 0 then X ^ 32 else 0 := by
  have hshift : gf2Word (c >>> 1) = ∑ i ∈ Finset.range 31, if c.getLsbD (i + 1) then X ^ (31 - i) else 0 := by
    rw [gf2Word, Finset.sum_range_succ]
    simp [Nat.add_comm]
  rw [hshift, gf2Word, Finset.sum_range_succ', mul_add, Finset.mul_sum]
  refine congrArg₂ (· + ·) ?_ ?_
  · refine Finset.sum_congr rfl fun i hi => ?_
    have hi : i < 31 := Finset.mem_range.1 hi
    rw [mul_ite, mul_zero, ← pow_succ', show 31 - (i + 1) + 1 = 31 - i by omega]
  · rw [mul_ite, mul_zero, ← pow_succ']

/-- The constant is the generator without its leading term. -/
theorem gf2Word_crcPoly : gf2Word crcPoly + X ^ 32 = crcGenerator := by
  simp [gf2Word, Finset.sum_range_succ, crcGenerator, crcPoly]
  ring

/-- Settles O14: the shift multiplies by x, and the constant with x^32 is the generator. -/
theorem crcBitMultipliesByX : Obligations.CrcBitMultipliesByX := by
  intro c
  rw [X_mul_gf2Word, crcBitNext_eq_xor, gf2Word_xor, add_assoc]
  refine congrArg (gf2Word (c >>> 1) + ·) ?_
  cases c.getLsbD 0
  · simp [gf2Word]
  · simp only [if_true, ← gf2Word_crcPoly]
    rw [add_left_comm, CharTwo.add_self_eq_zero, add_zero]

theorem crcGenerator_natDegree : crcGenerator.natDegree = 32 := by
  unfold crcGenerator
  compute_degree!

theorem crcGenerator_monic : crcGenerator.Monic := by
  unfold crcGenerator
  monicity!

theorem crcGenerator_degree : crcGenerator.degree = 32 := by
  rw [degree_eq_natDegree crcGenerator_monic.ne_zero, crcGenerator_natDegree]; rfl

theorem gf2Word_degree_lt (c : Word) : (gf2Word c).degree < crcGenerator.degree := by
  rw [crcGenerator_degree]
  refine (mem_degreeLT (n := 32)).1 (Submodule.sum_mem _ fun i _ => ?_)
  split
  · rw [mem_degreeLT, degree_X_pow]; exact_mod_cast (by omega)
  · exact Submodule.zero_mem _

/-- Modulo the generator, bit steps multiply by a power of x. -/
theorem mk_gf2Word_crcBits (n : Nat) (c : Word) :
    AdjoinRoot.mk crcGenerator (gf2Word (crcBits n c)) = AdjoinRoot.mk crcGenerator (X ^ n * gf2Word c) := by
  induction n generalizing c with
  | zero => simp [crcBits]
  | succ n ih =>
    have hgen : AdjoinRoot.mk crcGenerator (if c.getLsbD 0 then crcGenerator else 0) = 0 := by
      split
      · exact AdjoinRoot.mk_self
      · exact map_zero _
    rw [crcBits, ih, crcBitMultipliesByX c, map_mul, map_add, hgen, add_zero, ← map_mul, ← mul_assoc, ← pow_succ]

/-- The byte enters the register at its highest coefficients. -/
theorem gf2Word_byteOperand (b : Byte) : gf2Word (byteOperand b) = X ^ 24 * gf2Byte b := by
  have hhigh : ∀ i, (byteOperand b).getLsbD (8 + i) = false := fun i => by simp [byteOperand]
  have hlow : ∀ i < 8, (byteOperand b).getLsbD i = b.getLsbD i := fun i hi => by
    simp [byteOperand, show i < 32 by omega]
  rw [gf2Word, Finset.sum_range_add _ 8 24, Finset.sum_eq_zero (s := Finset.range 24) fun i _ => by simp [hhigh],
    add_zero, gf2Byte, Finset.mul_sum]
  refine Finset.sum_congr rfl fun i hi => ?_
  have hi : i < 8 := Finset.mem_range.1 hi
  rw [hlow i hi, mul_ite, mul_zero, ← pow_add, show 24 + (7 - i) = 31 - i by omega]

theorem mk_gf2Word_crcNext (c : Word) (b : Byte) :
    AdjoinRoot.mk crcGenerator (gf2Word (crcNext c b)) =
      AdjoinRoot.mk crcGenerator (X ^ 8 * gf2Word c + X ^ 32 * gf2Byte b) := by
  rw [crcNext, crcStepsPerByte, mk_gf2Word_crcBits, gf2Word_xor, gf2Word_byteOperand]
  exact congrArg _ (by ring)

/-- The first byte of a message stands highest (R34). -/
theorem gf2Message_cons (b : Byte) (bs : List Byte) :
    gf2Message (b :: bs) = X ^ (8 * bs.length) * gf2Byte b + gf2Message bs := by
  rw [gf2Message, List.length_cons, Finset.sum_range_succ', add_comm]
  refine congrArg₂ (· + ·) ?_ ?_
  · rw [gf2Byte, Finset.mul_sum]
    simp [pow_add]
  · refine Finset.sum_congr rfl fun k _ => Finset.sum_congr rfl fun i _ => ?_
    rw [List.getD_cons_succ, show bs.length + 1 - 1 - (k + 1) = bs.length - 1 - k by omega]

/-- The congruence for a message taken from any register. -/
theorem mk_gf2Word_foldl_crcNext (c : Word) (bs : List Byte) :
    AdjoinRoot.mk crcGenerator (gf2Word (bs.foldl crcNext c)) =
      AdjoinRoot.mk crcGenerator (X ^ (8 * bs.length) * gf2Word c + X ^ 32 * gf2Message bs) := by
  induction bs generalizing c with
  | nil => simp [gf2Message]
  | cons b bs ih =>
    rw [List.foldl_cons, ih, gf2Message_cons, map_add, map_mul, mk_gf2Word_crcNext, ← map_mul, ← map_add,
      List.length_cons]
    exact congrArg _ (by ring)

/-- Settles O18: the register is congruent to the message's polynomial and of smaller degree than the generator. -/
theorem crcIsThePolynomialRemainder : Obligations.CrcIsThePolynomialRemainder := by
  intro bs
  have hdvd := AdjoinRoot.mk_eq_mk.1 (mk_gf2Word_foldl_crcNext crcInitValue bs)
  have hself := (modByMonic_eq_self_iff crcGenerator_monic).2 (gf2Word_degree_lt (crcAfter bs))
  rw [← hself]
  exact modByMonic_eq_of_dvd_sub crcGenerator_monic hdvd

end Sys2Proof.Machine

/-! ### The registers a zero byte leaves alone

Eight bit steps fix zero only. Adding the identity to a run of steps is linear, and over GF(2) its square is the run
twice as long, added; so eight steps come down to one, where the generator's value at 1 decides
(spec/40_checksum_units.md R69). -/

namespace Sys2Proof.Machine

open Polynomial

/-- The generator has an odd number of terms, so x + 1 does not divide it. -/
theorem crcGenerator_eval_one : crcGenerator.eval 1 = 1 := by
  simp [crcGenerator]
  decide

/-- An odd register would need a generator that vanishes at 1; an even one would equal its half. -/
theorem eq_zero_of_crcBitNext_eq (c : Word) (h : crcBitNext c = c) : c = 0 := by
  have hpoly := congrArg (eval 1) (crcBitMultipliesByX c)
  have heven : c.getLsbD 0 = false := by
    by_contra hodd
    rw [Bool.not_eq_false] at hodd
    rw [h, hodd] at hpoly
    simp only [eval_add, eval_mul, eval_X, one_mul, if_true, crcGenerator_eval_one, left_eq_add, one_ne_zero] at hpoly
  have hhalf := toNat_ushiftRight_one c
  rw [crcBitNext, heven, if_neg Bool.false_ne_true] at h
  rw [h] at hhalf
  exact BitVec.eq_of_toNat_eq (show c.toNat = 0 by omega)

theorem crcBits_add (m n : Nat) (c : Word) : crcBits (m + n) c = crcBits n (crcBits m c) := by
  induction m generalizing c with
  | zero => rw [Nat.zero_add]; rfl
  | succ m ih => rw [Nat.succ_add]; exact ih _

/-- Where `2 * n` steps fix `c`, `n` steps fix what they add to it. -/
theorem eq_zero_of_crcBits_double (n : Nat) (single : ∀ c, crcBits n c = c → c = 0) (c : Word)
    (h : crcBits (n + n) c = c) : c = 0 := by
  have hfix : crcBits n (crcBits n c ^^^ c) = crcBits n c ^^^ c := by
    rw [crcBits_xor, ← crcBits_add, h, BitVec.xor_comm]
  exact single c (BitVec.xor_eq_zero_iff.1 (single _ hfix))

theorem crcBits_eight_eq_iff (c : Word) : crcBits 8 c = c ↔ c = 0 := by
  constructor
  · exact eq_zero_of_crcBits_double 4 (eq_zero_of_crcBits_double 2 (eq_zero_of_crcBits_double 1
      eq_zero_of_crcBitNext_eq)) c
  · rintro rfl; decide

theorem iterate_crcBit (n : Nat) (s : State) : State.crcBit^[n] s = { s with crc := crcBits n s.crc } := by
  induction n generalizing s with
  | zero => rfl
  | succ n ih => rw [Function.iterate_succ_apply, ih]; rfl

theorem crcNext_zero_byte (c : Word) : crcNext c 0x00 = crcBits 8 c := by
  rw [crcNext, show byteOperand 0x00 = 0#32 from rfl, BitVec.xor_zero, crcStepsPerByte]

/-- Settles O12: `CRC.STEP` runs `CRC.BIT` eight times, and eight bit steps fix zero only. -/
theorem crcStepIsEightBitSteps : Obligations.CrcStepIsEightBitSteps := by
  refine ⟨fun s b => ?_, fun c => ?_, by decide⟩
  · rw [iterate_crcBit]; rfl
  · rw [crcNext_zero_byte]; exact crcBits_eight_eq_iff c

end Sys2Proof.Machine

/-! ### The vote as a count of inputs

The case table of R81: one equation per branch of R80, and what a count of two among three words says. -/

namespace Sys2Proof.Machine

theorem vote_of_first_agrees {c1 c2 c3 : Word} (h : c1 = c2 ∨ c1 = c3) : vote c1 c2 c3 = some c1 := if_pos h

theorem vote_of_first_alone {c1 c2 c3 : Word} (h12 : c1 ≠ c2) (h13 : c1 ≠ c3) :
    vote c1 c2 c3 = if c2 = c3 then some c2 else none := if_neg (not_or.2 ⟨h12, h13⟩)

/-- At least two of three words are `v` exactly where one of the three pairs is. -/
theorem two_le_count_iff (c1 c2 c3 v : Word) :
    2 ≤ [c1, c2, c3].count v ↔ (c1 = v ∧ c2 = v) ∨ (c1 = v ∧ c3 = v) ∨ (c2 = v ∧ c3 = v) := by
  simp only [List.count_cons, List.count_nil, beq_iff_eq]
  split_ifs <;> simp [*]

/-- The vote's value is the one a pair of its inputs shares; equality being transitive, no two pairs share different
ones. -/
theorem vote_eq_some_iff (c1 c2 c3 v : Word) :
    vote c1 c2 c3 = some v ↔ (c1 = v ∧ c2 = v) ∨ (c1 = v ∧ c3 = v) ∨ (c2 = v ∧ c3 = v) := by
  by_cases hfirst : c1 = c2 ∨ c1 = c3
  · rw [vote_of_first_agrees hfirst, Option.some_inj]
    constructor
    · rintro rfl
      exact hfirst.imp (fun h12 => ⟨rfl, h12.symm⟩) fun h13 => .inl ⟨rfl, h13.symm⟩
    · rintro (⟨h1, -⟩ | ⟨h1, -⟩ | ⟨h2, h3⟩)
      · exact h1
      · exact h1
      · exact hfirst.elim (·.trans h2) (·.trans h3)
  · obtain ⟨h12, h13⟩ := not_or.1 hfirst
    rw [vote_of_first_alone h12 h13, Option.ite_none_right_eq_some, Option.some_inj]
    constructor
    · rintro ⟨h23, rfl⟩
      exact .inr (.inr ⟨rfl, h23.symm⟩)
    · rintro (⟨h1, h2⟩ | ⟨h1, h3⟩ | ⟨h2, h3⟩)
      · exact absurd (h1.trans h2.symm) h12
      · exact absurd (h1.trans h3.symm) h13
      · exact ⟨h2.trans h3.symm, h2⟩

/-- Settles O21: the branches of R80 one by one, and the count by the pair that shares the value. -/
theorem voteIsTheSharedValue : Obligations.VoteIsTheSharedValue := by
  intro c1 c2 c3
  refine ⟨vote_of_first_agrees, fun h12 h13 h23 => ?_, fun h12 h13 h23 => ?_, fun v => ?_⟩
  · rw [vote_of_first_alone h12 h13, if_pos h23]
  · rw [vote_of_first_alone h12 h13, if_neg h23]
  · rw [vote_eq_some_iff, two_le_count_iff]

end Sys2Proof.Machine

/-! ### What happens to the slot along a run

The guard of R102 as a relation between two states of a run, so that the run's statement is that of its steps
(spec/42_checkpoint_commands.md R102). -/

namespace Sys2Proof.Machine

/-- From `s` to `t` the answers grew, the slot is Valid where it was or where one of the new answers is 0, and none of
them is -2 where it was. -/
def CheckpointGuard (s t : State) : Prop :=
  ∃ new, t.responses = s.responses ++ new ∧
    (t.slotValid = true ↔ s.slotValid = true ∨ ResultCode.success.word ∈ new) ∧
    (s.slotValid = true → ResultCode.noCheckpoint.word ∉ new)

namespace CheckpointGuard

variable {s t u : State}

theorem of_unchanged (responses : t.responses = s.responses) (slot : t.slotValid = s.slotValid) :
    CheckpointGuard s t :=
  ⟨[], by simp [responses], by simp [slot], fun _ => List.not_mem_nil⟩

theorem of_answer (c : ResultCode) (responses : t.responses = s.responses ++ [c.word])
    (slot : t.slotValid = true ↔ s.slotValid = true ∨ c = .success)
    (guarded : s.slotValid = true → c ≠ .noCheckpoint) : CheckpointGuard s t := by
  have isSuccess : ResultCode.success.word ∈ [c.word] ↔ c = .success := by cases c <;> decide
  have isNoCheckpoint : ResultCode.noCheckpoint.word ∈ [c.word] ↔ c = .noCheckpoint := by cases c <;> decide
  exact ⟨[c.word], responses, by rw [slot, isSuccess], fun valid => mt isNoCheckpoint.1 (guarded valid)⟩

theorem trans (first : CheckpointGuard s t) (second : CheckpointGuard t u) : CheckpointGuard s u := by
  obtain ⟨new, added, filled, guarded⟩ := first
  obtain ⟨new', added', filled', guarded'⟩ := second
  refine ⟨new ++ new', by rw [added', added, List.append_assoc], ?_, fun valid => ?_⟩
  · rw [filled', filled, List.mem_append, or_assoc]
  · rw [List.mem_append, not_or]
    exact ⟨guarded valid, guarded' (filled.2 (.inl valid))⟩

end CheckpointGuard

/-- `VERIFY` on a Valid slot never answers -2. -/
theorem verifyCode_ne_noCheckpoint (saved : Word) (agreed : Option Word) :
    verifyCode saved agreed ≠ .noCheckpoint := by
  cases agreed with
  | none => exact ResultCode.noConfusion
  | some v => rw [verifyCode]; split <;> exact ResultCode.noConfusion

/-- Of the five ways a command ends, only `stored` fills an Empty slot, and it answers 0. -/
theorem CommandEffect.checkpointGuard {s t : State} {i : Instr} (h : CommandEffect s i t) : CheckpointGuard s t := by
  cases h with
  | violation => exact .of_unchanged rfl rfl
  | stored => exact .of_answer .success rfl (by simp) (by simp)
  | notStored => exact .of_answer .consensusFailure rfl (by simp) (by simp)
  | verified base len kept valid =>
    exact .of_answer _ rfl (by simp [valid]) fun _ => verifyCode_ne_noCheckpoint _ _
  | noCheckpoint base len kept empty => exact .of_answer .noCheckpoint rfl (by simp) (by simp [empty])

/-- Only the reset input breaks the guard. -/
theorem StepEffect.checkpointGuard {s t : State} (h : StepEffect s t) (noReset : s.noResetAhead) :
    CheckpointGuard s t := by
  cases h with
  | idle => exact .of_unchanged rfl rfl
  | modified => exact .of_unchanged rfl rfl
  | reset rest host =>
    have keeps : HostAction.assertReset.keepsRunning = true := noReset _ (by simp [host])
    cases keeps
  | command i rest u host running effect =>
    have entry : CheckpointGuard s (s.takeAction.accept (encode i)) := .of_unchanged rfl rfl
    have exit : CheckpointGuard u u.endCommand := .of_unchanged u.endCommand_responses u.endCommand_slotValid
    exact (entry.trans effect.checkpointGuard).trans exit
  | illegal => exact .of_unchanged rfl rfl

/-- A step takes at most its own action off the host's list. -/
theorem StepEffect.host_eq_or_tail {s t : State} (h : StepEffect s t) : t.host = s.host ∨ t.host = s.host.tail := by
  cases h with
  | idle => exact .inl rfl
  | modified => exact .inr rfl
  | reset => exact .inr rfl
  | command i rest u host running effect => exact .inr (u.endCommand_host.trans effect.host_eq)
  | illegal => exact .inr rfl

theorem StepEffect.noResetAhead {s t : State} (h : StepEffect s t) (noReset : s.noResetAhead) : t.noResetAhead := by
  intro a ha
  rcases h.host_eq_or_tail with same | tail
  · exact noReset a (same ▸ ha)
  · exact noReset a (List.mem_of_mem_tail (tail ▸ ha))

/-- The guard holds along every run without a reset, by induction on its steps. -/
theorem runSteps_checkpointGuard (n : Nat) (s t : State) (noReset : s.noResetAhead) (h : runSteps n s = .next t) :
    CheckpointGuard s t := by
  induction n generalizing s with
  | zero => cases h; exact .of_unchanged rfl rfl
  | succ n ih =>
    obtain ⟨u, hstep, hrun⟩ := (runSteps_succ n s t).1 h
    have effect := step_effect s u hstep
    exact (effect.checkpointGuard noReset).trans (ih u (effect.noResetAhead noReset) hrun)

/-- Settles O49: a `VERIFY` on an Empty slot ends in one way, and both statements about runs are the guard. -/
theorem noCheckpointGuard : Obligations.NoCheckpointGuard := by
  refine ⟨fun s base len rest running empty kept host => ?verify, fun n s t noReset empty h => ?fromEmpty,
    fun n s t noReset valid h => ?fromValid⟩
  case verify =>
    obtain ⟨u, hstep, effect⟩ := step_of_present s (.verify base len) rest running host
    refine ⟨u.endCommand, hstep, ?_⟩
    rw [State.endCommand_responses, State.endCommand_slotValid]
    cases effect with
    | violation _ broken => exact absurd kept broken
    | verified _ _ _ valid => cases empty.symm.trans valid
    | noCheckpoint => exact ⟨rfl, empty⟩
  case fromEmpty =>
    obtain ⟨new, added, filled, _⟩ := runSteps_checkpointGuard n s t noReset h
    rw [empty] at filled
    exact ⟨new, added, filled.trans (or_iff_right Bool.false_ne_true)⟩
  case fromValid =>
    obtain ⟨new, added, filled, guarded⟩ := runSteps_checkpointGuard n s t noReset h
    exact ⟨filled.2 (.inl valid), new, added, guarded valid⟩

end Sys2Proof.Machine

/-! ### What each command does, as equations

On a running CORE a command is the work past its contract check or the raised violation; the whole next state follows
(spec/42_checkpoint_commands.md R93 to R97, R103). -/

namespace Sys2Proof.Machine

theorem exec_of_kept (i : Instr) (s : State) (running : s.running) (kept : contractKept i.base i.len) :
    exec i s = .next (commandWork i s) := by
  rw [exec_eq_checkedCommand]
  rcases checkedCommand_cases i.base i.len (commandWork i) s with ⟨halted, _⟩ | ⟨_, causes, _⟩ | ⟨_, _, e⟩
  · exact absurd running halted
  · exact absurd ((checkCauses_nil_iff _ _).2 kept) causes
  · exact e

theorem exec_of_broken (i : Instr) (s : State) (running : s.running) (broken : ¬contractKept i.base i.len) :
    exec i s = .next (s.raise (checkCauses i.base i.len)) := by
  rw [exec_eq_checkedCommand]
  rcases checkedCommand_cases i.base i.len (commandWork i) s with ⟨halted, _⟩ | ⟨_, _, e⟩ | ⟨_, noCause, _⟩
  · exact absurd running halted
  · exact e
  · exact absurd ((checkCauses_nil_iff _ _).1 noCause) broken

theorem saveBody_eq (base : Addr) (len : Len) (s : State) :
    saveBody base len s = (s.withBufferTaken base len).settleSave (agreedOn (bufferBytes s.mem base len.toNat)) := by
  rw [saveBody, State.absorbBuffer_resolve, State.absorbBuffer_eq_withBufferTaken]

theorem verifyBody_of_valid (base : Addr) (len : Len) (s : State) (valid : s.slotValid = true) :
    verifyBody base len s = (s.withBufferTaken base len).respond
      (verifyCode s.slotValue (agreedOn (bufferBytes s.mem base len.toNat))) := by
  rw [verifyBody, if_pos valid, State.absorbBuffer_resolve, State.absorbBuffer_eq_withBufferTaken,
    State.settleVerify_eq_respond, State.withBufferTaken_slotValue]

theorem verifyBody_of_empty (base : Addr) (len : Len) (s : State) (empty : s.slotValid = false) :
    verifyBody base len s = s.respond .noCheckpoint := by
  rw [verifyBody, if_neg (by simp [empty])]

/-- The bits the contract check raises are the statement's (R111, R112). -/
theorem causeMask_checkCauses_eq_violationBits (base : Addr) (len : Len) :
    causeMask (checkCauses base len) = violationBits base len := by
  rw [checkCauses, violationBits, nullRef, maxLen]
  split_ifs <;> rfl

/-- A broken contract sets the bits of its causes and does nothing else (R117). -/
theorem exec_of_broken_bits (i : Instr) (s : State) (running : s.running) (broken : ¬contractKept i.base i.len) :
    exec i s = .next { s with fault := violationBits i.base i.len } := by
  have bits : s.fault ||| causeMask (checkCauses i.base i.len) = violationBits i.base i.len := by
    rw [running, causeMask_checkCauses_eq_violationBits]
    exact BitVec.zero_or
  rw [exec_of_broken i s running broken, State.raise, bits]

/-- Settles O24: the work of `SAVE` is settled by what its bytes agree on. -/
theorem saveMeaning : Obligations.SaveMeaning := by
  refine fun base len s running => ⟨fun kept => ?_, fun broken => ?_⟩
  · rw [exec_of_kept (.save base len) s running kept, commandWork, saveBody_eq]
    cases agreedOn (bufferBytes s.mem base len.toNat) with
    | some v => rfl
    | none => rfl
  · exact exec_of_broken_bits (.save base len) s running broken

theorem verifyCode_word (saved : Word) (agreed : Option Word) :
    (verifyCode saved agreed).word =
      match agreed with
      | some v => if v = saved then 0x00000000 else 0xFFFFFFFD
      | none => 0xFFFFFFFF := by
  cases agreed with
  | none => rfl
  | some v => exact apply_ite ResultCode.word _ _ _

/-- Settles O25: the slot selects the work of `VERIFY`, and the word of its code is the response. -/
theorem verifyMeaning : Obligations.VerifyMeaning := by
  refine fun base len s running => ⟨fun kept valid => ?_, fun kept empty => ?_, fun broken => ?_⟩
  · rw [exec_of_kept (.verify base len) s running kept, commandWork, verifyBody_of_valid base len s valid, State.respond,
      verifyCode_word]
    rfl
  · rw [exec_of_kept (.verify base len) s running kept, commandWork, verifyBody_of_empty base len s empty]
    rfl
  · exact exec_of_broken_bits (.verify base len) s running broken

/-- Settles O26: the empty buffer agrees on 0, and `SAVE` of it is `saveMeaning` with no byte. -/
theorem saveOfTheEmptyBuffer : Obligations.SaveOfTheEmptyBuffer := by
  intro base s running notNull
  have agreed : agreedOn (bufferBytes s.mem base (0 : Len).toNat) = some 0x00000000 :=
    show agreedOn [] = some 0x00000000 by decide
  rw [(saveMeaning base 0 s running).1 ⟨notNull, by decide⟩, agreed]
  rfl

/-- Settles O29: past the contract check a command takes its buffer first, and that overwrites all four registers. -/
theorem unitsAreInitialisedFirst : Obligations.UnitsAreInitialisedFirst := by
  intro i s u l c x running kept uses
  cases i with
  | save base len =>
    rw [(saveMeaning base len s running).1 kept]
    exact (saveMeaning base len { s with sum := u, lh := l, crc := c, idx := x } running).1 kept
  | verify base len =>
    have valid : s.slotValid = true := uses.resolve_left (verify_opcode_ne_save base len)
    rw [(verifyMeaning base len s running).1 kept valid]
    exact (verifyMeaning base len { s with sum := u, lh := l, crc := c, idx := x } running).1 kept valid

/-! ### What the outcome of a command depends on -/

/-- From `s` to `s'` and from `t` to `t'` the same answers were given, and the ends agree on `FAULT` and the slot. -/
def SameOutcome (s t s' t' : State) : Prop :=
  ∃ new : List Word, s'.responses = s.responses ++ new ∧ t'.responses = t.responses ++ new ∧
    s'.fault = t'.fault ∧ s'.slotValid = t'.slotValid ∧ s'.slotValue = t'.slotValue

section
variable {s t : State}

theorem SameOutcome.of_raise (fault : s.fault = t.fault) (valid : s.slotValid = t.slotValid)
    (value : s.slotValue = t.slotValue) (causes : List Cause) :
    SameOutcome s t (s.raise causes) (t.raise causes) :=
  ⟨[], (List.append_nil _).symm, (List.append_nil _).symm, congrArg (· ||| causeMask causes) fault, valid, value⟩

theorem SameOutcome.of_saveBody (base base' : Addr) (len : Len) (fault : s.fault = t.fault)
    (valid : s.slotValid = t.slotValid) (value : s.slotValue = t.slotValue)
    (bytes : bufferBytes s.mem base len.toNat = bufferBytes t.mem base' len.toNat) :
    SameOutcome s t (saveBody base len s) (saveBody base' len t) := by
  rw [saveBody_eq, saveBody_eq, bytes]
  cases agreedOn (bufferBytes t.mem base' len.toNat) with
  | some v => exact ⟨_, rfl, rfl, fault, rfl, rfl⟩
  | none => exact ⟨_, rfl, rfl, fault, valid, value⟩

theorem SameOutcome.of_verifyBody (base base' : Addr) (len : Len) (fault : s.fault = t.fault)
    (valid : s.slotValid = t.slotValid) (value : s.slotValue = t.slotValue)
    (bytes : bufferBytes s.mem base len.toNat = bufferBytes t.mem base' len.toNat) :
    SameOutcome s t (verifyBody base len s) (verifyBody base' len t) := by
  cases hslot : s.slotValid with
  | true =>
    rw [verifyBody_of_valid base len s hslot, verifyBody_of_valid base' len t (valid.symm.trans hslot), bytes, value]
    exact ⟨_, rfl, rfl, fault, valid, value⟩
  | false =>
    rw [verifyBody_of_empty base len s hslot, verifyBody_of_empty base' len t (valid.symm.trans hslot)]
    exact ⟨_, rfl, rfl, fault, valid, value⟩

end

/-- The contract check looks at the length and at whether the reference is null. -/
theorem checkCauses_congr (base base' : Addr) (len : Len) (null : base = 0 ↔ base' = 0) :
    checkCauses base len = checkCauses base' len := by
  have hnull : base = nullRef ↔ base' = nullRef := null
  rw [checkCauses, checkCauses, if_congr hnull rfl rfl]

/-- Settles O33: both commands fail the contract check alike, or both do their work on the same bytes. -/
theorem outcomeDependsOnTheBytesAlone : Obligations.OutcomeDependsOnTheBytesAlone := by
  intro i j s t s' t' opcode len null valid value bytes hs ht
  have running := (exec_next i s s' hs).1
  have running' := (exec_next j t t' ht).1
  have fault : s.fault = t.fault := running.trans running'.symm
  have causes : checkCauses i.base i.len = checkCauses j.base j.len := len ▸ checkCauses_congr _ _ _ null
  have sameContract : contractKept i.base i.len ↔ contractKept j.base j.len := by
    rw [contractKept, ← checkCauses_nil_iff, causes, checkCauses_nil_iff]
  suffices SameOutcome s t s' t' from this
  by_cases kept : contractKept i.base i.len
  · rw [exec_of_kept i s running kept] at hs
    rw [exec_of_kept j t running' (sameContract.1 kept)] at ht
    cases hs
    cases ht
    cases i with
    | save base n =>
      cases j with
      | save base' n' => cases len; exact .of_saveBody base base' n fault valid value bytes
      | verify base' n' => exact absurd opcode.symm (verify_opcode_ne_save base' n')
    | verify base n =>
      cases j with
      | save base' n' => exact absurd opcode (verify_opcode_ne_save base n)
      | verify base' n' => cases len; exact .of_verifyBody base base' n fault valid value bytes
  · rw [exec_of_broken i s running kept] at hs
    rw [exec_of_broken j t running' (mt sameContract.2 kept), ← causes] at ht
    cases hs
    cases ht
    exact .of_raise fault valid value _

end Sys2Proof.Machine

/-! ### SAVE and then VERIFY

A step on a legal word is the reference machine's command, and the reference machine shows all that the answers of a
`SAVE` and a later `VERIFY` depend on (spec/42_checkpoint_commands.md R99 to R101). -/

namespace Sys2Proof.Machine

/-- A running CORE takes a legal word off the port and does what the reference machine does. -/
theorem step_of_present_refines (s : State) (i : Instr) (rest : List HostAction) (running : s.running)
    (host : s.host = .present (encode i) :: rest) :
    ∃ t, step s = .next t ∧ t.host = rest ∧ t.toRef = refCommand (encode i).toNat s.toRef := by
  obtain ⟨u, hstep, _⟩ := step_of_present s i rest running host
  obtain ⟨href, hrest⟩ := (step_effect s _ hstep).refines host
  exact ⟨u.endCommand, hstep, hrest, href⟩

theorem step_of_present_save (s : State) (base : Addr) (len : Len) (rest : List HostAction) (running : s.running)
    (kept : contractKept base len) (host : s.host = .present (encode (.save base len)) :: rest) :
    ∃ t, step s = .next t ∧ t.host = rest ∧ t.toRef = refSave (bufferBytes s.mem base len.toNat) s.toRef := by
  obtain ⟨t, hstep, hrest, href⟩ := step_of_present_refines s (.save base len) rest running host
  exact ⟨t, hstep, hrest, href.trans (refCommand_save base len s.toRef kept)⟩

theorem step_of_present_verify (s : State) (base : Addr) (len : Len) (rest : List HostAction) (running : s.running)
    (kept : contractKept base len) (host : s.host = .present (encode (.verify base len)) :: rest) :
    ∃ t, step s = .next t ∧ t.host = rest ∧ t.toRef = refVerify (bufferBytes s.mem base len.toNat) s.toRef := by
  obtain ⟨t, hstep, hrest, href⟩ := step_of_present_refines s (.verify base len) rest running host
  exact ⟨t, hstep, hrest, href.trans (refCommand_verify base len s.toRef kept)⟩

@[simp] theorem refSave_mem (bs : List Byte) (r : RefState) : (refSave bs r).mem = r.mem := by
  rw [refSave]; split <;> rfl

@[simp] theorem refSave_causes (bs : List Byte) (r : RefState) : (refSave bs r).causes = r.causes := by
  rw [refSave]; split <;> rfl

theorem verifyCode_self (v : Word) : verifyCode v (some v) = .success := if_pos rfl

/-- Settles O46: where the `SAVE` has stored, the `VERIFY` finds its value; where not, the slot is as it was and the same
bytes agree on nothing. -/
theorem saveThenVerify : Obligations.SaveThenVerify := by
  intro s base len rest running kept host
  obtain ⟨t, hstep, hhost, ht⟩ := step_of_present_save s base len _ running kept host
  have mem : t.mem = s.mem := (congrArg RefState.mem ht).trans (refSave_mem _ _)
  have runs : t.running := ((congrArg RefState.causes ht).trans (refSave_causes _ _)).trans running
  obtain ⟨u, hstep', -, hu⟩ := step_of_present_verify t base len rest runs kept hhost
  rw [mem] at hu
  refine ⟨t, u, hstep, hstep', ?_⟩
  cases agreed : agreedOn (bufferBytes s.mem base len.toNat) with
  | some v =>
    rw [refSave_of_some _ _ v agreed] at ht
    rw [refVerify_of_slot_some _ _ v (congrArg RefState.slot ht), agreed, verifyCode_self] at hu
    have saved : t.responses = s.responses ++ [0x00000000] := congrArg RefState.answers ht
    have found : u.responses = t.responses ++ [0x00000000] := congrArg RefState.answers hu
    simp [saved, found]
  | none =>
    rw [refSave_of_none _ _ agreed] at ht
    have slot : t.toRef.slot = s.toRef.slot := by rw [ht]
    have failed : t.responses = s.responses ++ [0xFFFFFFFF] := congrArg RefState.answers ht
    refine ⟨fun saved => by simp [failed] at saved, fun _ empty => ?_, fun _ valid => ?_, .inr failed⟩
    · rw [refVerify_of_slot_none _ _ (slot.trans (s.toRef_slot_of_empty empty))] at hu
      exact congrArg RefState.answers hu
    · rw [refVerify_of_slot_some _ _ _ (slot.trans (s.toRef_slot_of_valid valid)), agreed] at hu
      exact congrArg RefState.answers hu

/-- Changes of the buffer space that the host has first take a step each, and change nothing else. -/
theorem runSteps_modifyAll (changes : List (Addr × Byte)) (rest : List HostAction) (n : Nat) (s : State)
    (host : s.host = changes.map (fun c => HostAction.modify c.1 c.2) ++ rest) :
    runSteps (changes.length + n) s = runSteps n { s with mem := modifyAll s.mem changes, host := rest } := by
  induction changes generalizing s with
  | nil => rw [List.length_nil, Nat.zero_add, ← show s.host = rest from host]; rfl
  | cons c changes ih =>
    have hstep := step_of_modify s c.1 c.2 _ host
    rw [List.length_cons, Nat.add_right_comm, runSteps, hstep]
    exact ih _ (congrArg List.tail host)

/-- Settles O47: the `SAVE` puts `v` into the slot, the changes leave it there, and the `VERIFY` compares with it. -/
theorem corruptionDetection : Obligations.CorruptionDetection := by
  intro s base base' len len' changes rest v running kept kept' agreed host
  obtain ⟨t, hstep, hhost, ht⟩ := step_of_present_save s base len _ running kept host
  rw [refSave_of_some _ _ v agreed] at ht
  have runs : t.running := (congrArg RefState.causes ht).trans running
  have mem : t.mem = s.mem := congrArg RefState.mem ht
  have slot : t.toRef.slot = some v := congrArg RefState.slot ht
  have saved : t.responses = s.responses ++ [0x00000000] := congrArg RefState.answers ht
  obtain ⟨u, hstep', hrest, hu⟩ := step_of_present_verify
    { t with mem := modifyAll t.mem changes, host := .present (encode (.verify base' len')) :: rest } base' len' rest
    runs kept' rfl
  refine ⟨u, (runSteps_succ _ s u).2 ⟨t, hstep, ?_⟩, hrest, ?_⟩
  · rw [runSteps_modifyAll changes _ 1 t hhost]
    exact (runSteps_succ 0 _ u).2 ⟨u, hstep', rfl⟩
  · have answered : u.responses = t.responses ++
        [(verifyCode v (agreedOn (bufferBytes (modifyAll t.mem changes) base' len'.toNat))).word] :=
      congrArg RefState.answers (hu.trans (refVerify_of_slot_some _ _ v slot))
    rw [answered, saved, mem, verifyCode_word, List.append_assoc]
    rfl

end Sys2Proof.Machine

/-! ### When checksum-1 and checksum-2 agree

Checksum-2 exceeds checksum-1 by `31^(n-1-i) - 1` times byte `i`, and the powers of two in that weight are counted
(spec/42_checkpoint_commands.md R101, R104). -/

namespace Sys2Proof.Machine

theorem thirtyOne_pow_mul (k n : Nat) : 31 ^ k * n = (31 ^ k - 1) * n + n := by
  rw [← Nat.succ_mul, Nat.succ_eq_add_one, Nat.sub_add_cancel (Nat.one_le_pow k 31 (by decide))]

/-- The polynomial of checksum-2 is the sum of checksum-1 and an excess for each byte. -/
theorem hashPoly_eq_sum_add_excess (bs : List Byte) :
    hashPoly bs = (bs.map BitVec.toNat).sum +
      ∑ i ∈ Finset.range bs.length, (31 ^ (bs.length - 1 - i) - 1) * (bs.getD i 0).toNat := by
  induction bs with
  | nil => rfl
  | cons b bs ih =>
    have shifted : ∑ i ∈ Finset.range bs.length, (31 ^ (bs.length - (i + 1)) - 1) * (bs.getD i 0).toNat =
        ∑ i ∈ Finset.range bs.length, (31 ^ (bs.length - 1 - i) - 1) * (bs.getD i 0).toNat :=
      Finset.sum_congr rfl fun i _ => by rw [Nat.add_comm i 1, Nat.sub_sub]
    rw [hashPoly, ih, thirtyOne_pow_mul, List.length_cons, Finset.sum_range_succ']
    simp only [List.getD_cons_succ, List.getD_cons_zero, List.map_cons, List.sum_cons, Nat.add_sub_cancel, Nat.sub_zero,
      shifted]
    omega

/-- The two checksums agree where what checksum-2 has in excess vanishes modulo `2^32`. -/
theorem checksum1_eq_checksum2_iff (bs : List Byte) (excess : Nat)
    (h : hashPoly bs = (bs.map BitVec.toNat).sum + excess) :
    checksum1 bs = checksum2 bs ↔ excess % 2 ^ 32 = 0 := by
  rw [checksum1_eq_ref, checksum2_eq_ref, refChecksum1, refChecksum2, h, ← BitVec.toNat_inj, BitVec.toNat_ofNat,
    BitVec.toNat_ofNat]
  omega

/-- Settles O22: the sum is the excess of checksum-2 over checksum-1. -/
theorem sumAndHashAgreeIff : Obligations.SumAndHashAgreeIff :=
  fun bs => checksum1_eq_checksum2_iff bs _ (hashPoly_eq_sum_add_excess bs)

theorem hashPoly_zeros_prepend (n : Nat) (bs : List Byte) : hashPoly (List.replicate n 0x00 ++ bs) = hashPoly bs := by
  induction n with
  | zero => rfl
  | succ n ih => rw [List.replicate_succ, List.cons_append, hashPoly, ih]; simp

/-- The excess of a buffer that is zero but for its last byte and a byte `m` before it. -/
theorem hashPoly_two_bytes (before between : Nat) (m last : Byte) :
    hashPoly (List.replicate before 0x00 ++ m :: (List.replicate between 0x00 ++ [last])) =
      ((List.replicate before 0x00 ++ m :: (List.replicate between 0x00 ++ [last])).map BitVec.toNat).sum +
        (31 ^ (between + 1) - 1) * m.toNat := by
  have sum : ((List.replicate before 0x00 ++ m :: (List.replicate between 0x00 ++ [last])).map BitVec.toNat).sum =
      m.toNat + last.toNat := by simp
  rw [sum, hashPoly_zeros_prepend, hashPoly, hashPoly_zeros_append, List.length_append, List.length_replicate,
    List.length_singleton, thirtyOne_pow_mul]
  omega

theorem thirtyOne_pow_sub_one_ne_zero (k : Nat) (hk : k ≠ 0) : 31 ^ k - 1 ≠ 0 :=
  Nat.sub_ne_zero_of_lt (Nat.one_lt_pow hk (by decide))

/-- `31^k - 1` holds the factor two once for an odd `k`, and five times more often than `k` for an even one. -/
theorem padicValNat_thirtyOne_pow_sub_one_le (k : Nat) (hk : k ≠ 0) :
    padicValNat 2 (31 ^ k - 1) ≤ 5 + padicValNat 2 k := by
  rcases Nat.even_or_odd k with even | odd
  · have lifted := padicValNat.pow_two_sub_pow (x := 31) (y := 1) (by decide) (by decide) (by decide) hk even
    have h32 : padicValNat 2 (31 + 1) = 5 := padicValNat.prime_pow (p := 2) 5
    have h30 : padicValNat 2 (31 - 1) = 1 := by
      rw [show 31 - 1 = 2 * 15 by rfl, padicValNat.mul (by decide) (by decide), padicValNat.self (by decide),
        padicValNat.eq_zero_of_not_dvd (by decide)]
    rw [one_pow, h32, h30] at lifted
    omega
  · have hmod : 31 ^ k % 4 = 3 := by
      obtain ⟨j, rfl⟩ := odd
      rw [pow_succ, pow_mul, Nat.mul_mod, Nat.pow_mod]
      simp
    have notFour : ¬2 ^ 2 ∣ 31 ^ k - 1 := by
      generalize 31 ^ k = power at hmod
      omega
    have below := mt (padicValNat_dvd_iff_le (thirtyOne_pow_sub_one_ne_zero k hk)).2 notFour
    omega

/-- A power of two above a number's logarithm does not divide it. -/
theorem padicValNat_two_lt_of_lt {n e : Nat} (pos : n ≠ 0) (h : n < 2 ^ e) : padicValNat 2 n < e :=
  (padicValNat_le_nat_log n).trans_lt (Nat.log_lt_of_lt_pow pos h)

/-- Below `2^20` bytes no weight times a non-zero byte vanishes modulo `2^32` (R101). -/
theorem excess_mod_ne_zero (k m : Nat) (hk : k ≠ 0) (hk20 : k < 2 ^ 20) (hm : m ≠ 0) (hm8 : m < 2 ^ 8) :
    (31 ^ k - 1) * m % 2 ^ 32 ≠ 0 := by
  have weight := thirtyOne_pow_sub_one_ne_zero k hk
  have hpow := padicValNat_thirtyOne_pow_sub_one_le k hk
  have hk19 := padicValNat_two_lt_of_lt hk hk20
  have hm7 := padicValNat_two_lt_of_lt hm hm8
  intro vanishes
  have hval := (padicValNat_dvd_iff_le (Nat.mul_ne_zero weight hm)).1 (Nat.dvd_of_mod_eq_zero vanishes)
  rw [padicValNat.mul weight hm] at hval
  omega

/-- Settles O48: the two checksums differ by the excess of the one byte, which holds the factor two at most 31 times. -/
theorem earlyMutationPartsSumAndHash : Obligations.EarlyMutationPartsSumAndHash := by
  intro before between m last short nonzero agree
  have hm : m.toNat ≠ 0 := fun h => nonzero (BitVec.eq_of_toNat_eq h)
  exact excess_mod_ne_zero (between + 1) m.toNat (by omega) (by omega) hm m.isLt
    ((checksum1_eq_checksum2_iff _ _ (hashPoly_two_bytes before between m last)).1 agree)

/-- Settles O23: each buffer's three checksums are computed and voted on. -/
theorem knownBuffers : Obligations.KnownBuffers := by
  unfold Obligations.KnownBuffers
  decide +kernel

end Sys2Proof.Machine

/-! ### What a violation sets and what it leaves alone

The bits of `FAULT` after a legal word as a function of its two operands, and the frame of every halt
(spec/60_exceptions.md R111, R112, R114, R117). -/

namespace Sys2Proof.Machine

/-- Bit 0 is the null reference, bit 1 the length at the ceiling or above, and bit 2 is never set by operands (R114). -/
theorem getLsbD_violationBits (base : Addr) (len : Len) :
    ((violationBits base len).getLsbD 0 = true ↔ base = 0) ∧
    ((violationBits base len).getLsbD 1 = true ↔ 1048576 ≤ len.toNat) ∧
    (violationBits base len).getLsbD 2 = false := by
  rw [violationBits]
  by_cases null : base = 0 <;> by_cases long : 1048576 ≤ len.toNat <;>
    simp only [null, long, if_true, if_false] <;> decide

/-- A kept contract sets no bit (R94). -/
theorem violationBits_of_kept (base : Addr) (len : Len) (kept : contractKept base len) : violationBits base len = 0 := by
  rw [← causeMask_checkCauses_eq_violationBits, (checkCauses_nil_iff base len).2 kept, causeMask]

/-- However a command ends on a running CORE, `FAULT` is the bits of its operands. -/
theorem CommandEffect.fault_eq_violationBits {s t : State} {i : Instr} (h : CommandEffect s i t)
    (running : s.running) : t.fault = violationBits i.base i.len := by
  rcases h.raise_or_fault_eq with ⟨_, rfl⟩ | ⟨kept, same⟩
  · rw [State.raise_fault, running, causeMask_checkCauses_eq_violationBits]
    exact BitVec.zero_or
  · rw [same, running, violationBits_of_kept _ _ kept]

/-- Settles O36: a word decodes or not by its opcode alone; one that does leaves the bits of its own fields. -/
theorem everyApplicableCauseIsSet : Obligations.EveryApplicableCauseIsSet := by
  intro s cmd rest running host
  cases decoded : decode cmd with
  | ok i =>
    obtain ⟨hopc, hlen, hbase⟩ := decode_ok_fields cmd i decoded
    cases encode_of_decode cmd i decoded
    obtain ⟨u, hstep, effect⟩ := step_of_present s i rest running host
    have bits : u.endCommand.fault = violationBits i.base i.len :=
      u.endCommand_fault.trans (effect.fault_eq_violationBits running)
    rw [hopc, hlen, hbase]
    refine ⟨u.endCommand, hstep, fun notSave notVerify => ?_, fun _ => ?_⟩
    · cases i with
      | save => exact absurd rfl notSave
      | verify => exact absurd rfl notVerify
    · rw [bits]
      exact getLsbD_violationBits i.base i.len
  | error e =>
    obtain ⟨notSave, notVerify⟩ := opcodeField_of_decode_error cmd e decoded
    exact ⟨_, illegalWordHalts s cmd rest running host notSave notVerify, fun _ _ => rfl,
      fun legal => absurd legal (not_or.2 ⟨notSave, notVerify⟩)⟩

/-- Raising a violation on an accepted word changes the host's list, the latched fields and `FAULT`. -/
theorem State.raise_accept_frame (s : State) (cmd : Command) (rest : List HostAction) (causes : List Cause)
    (host : s.host = .present cmd :: rest) :
    (s.takeAction.accept cmd).raise causes =
      { s with
        host := rest, opc := opcodeField cmd, len := lenField cmd, base := baseField cmd
        fault := ((s.takeAction.accept cmd).raise causes).fault } := by
  rw [s.takeAction_of_host _ rest host]
  rfl

/-- Settles O38: of the rules of `StepEffect` only an illegal word and a command with a broken contract can halt a running
CORE, and both raise on the accepted word. -/
theorem violationsArePrecise : Obligations.ViolationsArePrecise := by
  intro s t running h halted
  cases step_effect s t h with
  | idle => exact absurd running halted
  | modified => exact absurd running halted
  | reset => exact absurd rfl halted
  | command i rest u host _ effect =>
    rw [State.endCommand_fault] at halted
    rw [u.endCommand_of_halted halted]
    rcases effect.raise_or_fault_eq with ⟨_, rfl⟩ | ⟨_, same⟩
    · exact ⟨encode i, rest, host, s.raise_accept_frame _ rest _ host⟩
    · exact absurd (same.trans running) halted
  | illegal cmd rest e host => exact ⟨cmd, rest, host, s.raise_accept_frame cmd rest _ host⟩

end Sys2Proof.Machine

/-! ### The idle and the halted CORE

A running CORE with nothing presented waits; a halted one has no step of its own, and what the host does to it short of a
reset reaches the buffer space and the host's list only (spec/60_exceptions.md R118; spec/70_reset_and_hazards.md R124,
R130). -/

namespace Sys2Proof.Machine

theorem step_of_nil_halted (s : State) (halted : ¬s.running) (host : s.host = []) :
    step s = .fault (.halted s.fault) := by
  rw [step_nil s host, if_pos (s.halted_iff.2 halted)]

theorem step_of_present_halted (s : State) (cmd : Command) (rest : List HostAction) (halted : ¬s.running)
    (host : s.host = .present cmd :: rest) : step s = .fault (.halted s.fault) := by
  rw [step_cons s _ rest host]
  rcases onCommand_cases cmd s.takeAction with ⟨_, stops⟩ | ⟨_, running, _⟩ | ⟨_, running, _⟩
  · exact stops
  · exact absurd running halted
  · exact absurd running halted

/-- Settles O42: the idle step of `step_nil`, on a CORE that is not halted. -/
theorem idleKeepsTheState : Obligations.IdleKeepsTheState := by
  intro s running host
  rw [step_nil s host, s.not_halted_iff.2 running, if_neg Bool.false_ne_true]

/-- From `s` to `t` every register of the CORE and both logs stayed: only the buffer space and the host's list can
differ. -/
def CoreKept (s t : State) : Prop := t = { s with mem := t.mem, host := t.host }

namespace CoreKept

variable {s t u : State}

theorem refl (s : State) : CoreKept s s := rfl

theorem fault_eq (h : CoreKept s t) : t.fault = s.fault := by
  rw [CoreKept] at h
  rw [h]

theorem trans (first : CoreKept s t) (second : CoreKept t u) : CoreKept s u := by
  rw [CoreKept, first] at second
  exact second

end CoreKept

/-- Short of a reset, a halted CORE meets only changes of the buffer space. -/
theorem StepEffect.coreKept {s t : State} (h : StepEffect s t) (halted : ¬s.running) (noReset : s.noResetAhead) :
    CoreKept s t := by
  cases h with
  | idle _ running => exact absurd running halted
  | modified => rfl
  | reset rest host =>
    have keeps : HostAction.assertReset.keepsRunning = true := noReset _ (by simp [host])
    cases keeps
  | command _ _ _ _ running => exact absurd running halted
  | illegal _ _ _ _ running => exact absurd running halted

/-- A halted CORE stays as it is along every run without a reset, by induction on its steps. -/
theorem runSteps_coreKept (n : Nat) (s t : State) (halted : ¬s.running) (noReset : s.noResetAhead)
    (h : runSteps n s = .next t) : CoreKept s t := by
  induction n generalizing s with
  | zero => cases h; exact .refl _
  | succ n ih =>
    obtain ⟨u, hstep, hrun⟩ := (runSteps_succ n s t).1 h
    have effect := step_effect s u hstep
    have kept := effect.coreKept halted noReset
    have stillHalted : ¬u.running := fun running => halted (kept.fault_eq.symm.trans running)
    exact kept.trans (ih u stillHalted (effect.noResetAhead noReset) hrun)

/-- Settles O39: the two stops, the frame of a halted run, and the state of the reset input. -/
theorem haltedIsTerminal : Obligations.HaltedIsTerminal :=
  ⟨step_of_nil_halted, step_of_present_halted, runSteps_coreKept,
    fun s rest host => ⟨_, step_of_assertReset s rest host, rfl, rfl⟩⟩

end Sys2Proof.Machine
